-- ==== Sys2Proof/Word.lean ====
section
/-! DEFINITION. Word types of the engine (spec/00_scope.md R5, spec/10_state.md R24, R25). -/

namespace Sys2Proof

/-- One character code, `CHAR_W` = 8 bits (R5, R67). -/
abbrev Byte := BitVec 8

/-- The command word, `CMD_W` = 16 bits (R5, R60). -/
abbrev Word := BitVec 16

/-- A letter index 0 to 25 held in `IDX_W` = 5 bits (R5, R68). -/
abbrev Index := BitVec 5

/-- A register array of 26 letter indices: ROM_VF, S, T, FWD, BWD (R10). -/
abbrev Table := Vector Index 26

end Sys2Proof
end

