-- ==== Sys2Proof/Syntax.lean ====
section
/-! DEFINITION. The nine commands, one constructor per row of spec/opcode_table.json (spec/30_encoding.md R61, R64). -/

namespace Sys2Proof

/-- A decoded command. The operand `k` is the shift as an integer, `sext_8(CMD[15:8])` (R63); the message operand is
not part of the command word (R60): it is IN[0..LEN-1]. -/
inductive Instr where
  /-- `IS_VALID` (R131). -/
  | isValid
  /-- `ENC_CAESAR k` (R132). -/
  | encCaesar (k : Int)
  /-- `DEC_CAESAR k` (R133). -/
  | decCaesar (k : Int)
  /-- `ENC_DOUBLE.REV k` (R134). -/
  | encDoubleRev (k : Int)
  /-- `ENC_DOUBLE.VF k` (R134). -/
  | encDoubleVf (k : Int)
  /-- `DEC_DOUBLE.REV k` (R135). -/
  | decDoubleRev (k : Int)
  /-- `DEC_DOUBLE.VF k` (R135). -/
  | decDoubleVf (k : Int)
  /-- `MAP_TABLE.REV k` (R136). -/
  | mapTableRev (k : Int)
  /-- `MAP_TABLE.VF k` (R136). -/
  | mapTableVf (k : Int)
deriving DecidableEq, Repr

end Sys2Proof
end

