-- ==== Sys2Proof/WellFormed.lean ====
section
/-! DEFINITION. Which commands can be spelled in a command word (spec/30_encoding.md R63, R69). -/

namespace Sys2Proof

/-- A shift the 8-bit two's-complement SHIFT field can carry: -128 to 127 (R63). The range 1 to 25 is NOT checked
here: presenting a bad shift is legitimate (R69) and has an error of its own (R152). -/
def shiftSpellable (k : Int) : Bool := decide (-128 ≤ k) && decide (k ≤ 127)

/-- The well-formed commands: those some command word spells. -/
def Instr.wf : Instr → Bool
  | .isValid => true
  | .encCaesar k => shiftSpellable k
  | .decCaesar k => shiftSpellable k
  | .encDoubleRev k => shiftSpellable k
  | .encDoubleVf k => shiftSpellable k
  | .decDoubleRev k => shiftSpellable k
  | .decDoubleVf k => shiftSpellable k
  | .mapTableRev k => shiftSpellable k
  | .mapTableVf k => shiftSpellable k

end Sys2Proof
end

