-- ==== Sys2Proof/Decode.lean ====
section
/-! DEFINITION. `Decode` of the command word and its inverse (spec/30_encoding.md R60 to R66, R69). -/

namespace Sys2Proof

/-- Why a command word is illegal: the cases of R65. All of them end a command alike, with ILLEGAL_COMMAND; the name
only says which condition of R65 the decoder met. -/
inductive DecodeError where
  /-- RSV is not 0. -/
  | reservedBits
  /-- OP is 0 or 7. -/
  | reservedOp
  /-- VAR is 3. -/
  | reservedVariant
  /-- OP is 1, 2 or 3 with VAR not 0, or OP is 4, 5 or 6 with VAR = 0. -/
  | variantNotAdmitted
  /-- OP is 1 with a SHIFT that is not 0x00. -/
  | shiftNotAdmitted
deriving DecidableEq, Repr

/-- OP = CMD[2:0] (R60). -/
def opField (w : Word) : BitVec 3 := w.extractLsb' 0 3

/-- VAR = CMD[4:3] (R60). -/
def varField (w : Word) : BitVec 2 := w.extractLsb' 3 2

/-- RSV = CMD[7:5] (R60). -/
def rsvField (w : Word) : BitVec 3 := w.extractLsb' 5 3

/-- SHIFT = CMD[15:8] (R60). -/
def shiftField (w : Word) : BitVec 8 := w.extractLsb' 8 8

/-- The condition of R65 that an unmatched word with RSV = 0 meets. -/
def illegalReason (op : BitVec 3) (var : BitVec 2) : DecodeError :=
  if op = 0 ∨ op = 7 then .reservedOp
  else if var = 3 then .reservedVariant
  else if op = 1 ∧ var = 0 then .shiftNotAdmitted
  else .variantNotAdmitted

/-- `Decode(w)` (R66), in the order the rule gives; the shift operand is `sext_8` of its field (R63), and its range
1 to 25 is not checked here. -/
def decode (w : Word) : Except DecodeError Instr :=
  let op := opField w
  let var := varField w
  let shf := shiftField w
  if rsvField w ≠ 0 then .error .reservedBits
  else if op = 1 ∧ var = 0 ∧ shf = 0 then .ok .isValid
  else if op = 2 ∧ var = 0 then .ok (.encCaesar shf.toInt)
  else if op = 3 ∧ var = 0 then .ok (.decCaesar shf.toInt)
  else if op = 4 ∧ var = 1 then .ok (.encDoubleRev shf.toInt)
  else if op = 4 ∧ var = 2 then .ok (.encDoubleVf shf.toInt)
  else if op = 5 ∧ var = 1 then .ok (.decDoubleRev shf.toInt)
  else if op = 5 ∧ var = 2 then .ok (.decDoubleVf shf.toInt)
  else if op = 6 ∧ var = 1 then .ok (.mapTableRev shf.toInt)
  else if op = 6 ∧ var = 2 then .ok (.mapTableVf shf.toInt)
  else .error (illegalReason op var)

/-- The word of four fields, `(SHIFT, RSV, VAR, OP)` from the most significant down, with RSV = 0 (R60). -/
def assemble (k : Int) (var : BitVec 2) (op : BitVec 3) : Word :=
  BitVec.ofInt 8 k ++ (0#3 ++ (var ++ op))

/-- The word of a command: the `word` column of R64, with the shift in two's complement (R69). -/
def encode : Instr → Word
  | .isValid => assemble 0 0 1
  | .encCaesar k => assemble k 0 2
  | .decCaesar k => assemble k 0 3
  | .encDoubleRev k => assemble k 1 4
  | .encDoubleVf k => assemble k 2 4
  | .decDoubleRev k => assemble k 1 5
  | .decDoubleVf k => assemble k 2 5
  | .mapTableRev k => assemble k 1 6
  | .mapTableVf k => assemble k 2 6

/-- The command word whose low `nbits` bits are those of `w`, all higher bits 0, numbered as spec/opcode_table.json
numbers them. The command word is one 16-bit value moved in one access, so no byte order applies (R42). -/
def tableWord (nbits w : Nat) : Word := BitVec.ofNat 16 (w % 2 ^ nbits)

/-- What the decoder reads from a word of the opcode table; `none` where it refuses, and where the table's word is
longer than the one instruction length there is (R60, R73). -/
def decodeTableWord (nbits w : Nat) : Option Instr :=
  if nbits ≤ 16 then (decode (tableWord nbits w)).toOption else none

end Sys2Proof
end

