-- ==== Sys2Proof/Config.lean ====
section
/-! DEFINITION. What an implementation fixes, and the free values (spec/00_scope.md R5, spec/10_state.md R32). -/

namespace Sys2Proof

/-- The value of the open parameter MAXLEN that `State.reset` starts with: the 256 that R5 and D11 suggest.
DESIGN CHOICE (notes/assumptions/3.md), unsafe only for a claim about `State.reset` itself: every state carries its
own MAXLEN (`State.maxLen`), and a claim about every state is a claim about every MAXLEN. -/
def Config.maxLen : Nat := 256

/-- The unspecified byte found in a buffer element that holds no value (R32): `freeByte n p` is what element `p` of the
buffer being read shows during the `n`-th host action. It has no body to unfold, so no proof can say what it is.
DESIGN CHOICE (notes/assumptions/5.md, notes/assumptions/6.md), safe. -/
opaque Config.freeByte : Nat → Nat → Byte

/-- The unspecified bit that a host read of RESULT returns while RESULT holds no value (R21, R32), during the `n`-th
host action. DESIGN CHOICE (notes/assumptions/6.md), safe. -/
opaque Config.freeBit : Nat → BitVec 1

end Sys2Proof
end

