-- ==== Sys2Proof/Machine/State.lean ====
section
/-! DEFINITION. The state of the engine as plain data, its reset value, and the reasons a step could stop
(spec/10_state.md R10 to R32; spec/30_encoding.md R71 for the host's actions). -/

namespace Sys2Proof.Machine

/-- The engine raises no machine fault: an error is a typed result of a command, written to STATUS and ERR, and the
engine takes the next command after it (R162, R138). So there is no constructor, and nothing to raise it (safe). -/
inductive Fault where
deriving DecidableEq, Repr

/-- Why a step would have no meaning. -/
inductive Refusal where
  /-- Raised by an arm of `exec` whose instruction has no meaning yet; the string is its mnemonic. No arm raises it in
  this model. Safe: the step stops. -/
  | notModelled (mnemonic : String)
deriving DecidableEq, Repr

/-- The stage-2 variants (R3, R62). -/
inductive Variant where
  /-- NONE: no stage 2 (R102). -/
  | none
  /-- REVERSED (R103). -/
  | reversed
  /-- VOWEL_FIRST (R104). -/
  | vowelFirst
deriving DecidableEq, Repr

/-- The named errors of R150. -/
inductive ErrorName where
  /-- INVALID_CHARACTER (R151). -/
  | invalidCharacter
  /-- SHIFT_OUT_OF_RANGE (R152). -/
  | shiftOutOfRange
  /-- EMPTY_INPUT, reserved for the host and never raised by the engine (R153). -/
  | emptyInput
  /-- ILLEGAL_COMMAND (R154). -/
  | illegalCommand
  /-- TABLE_FAULT (R155). -/
  | tableFault
deriving DecidableEq, Repr

/-- The items the host can read and not write (R30). -/
inductive ResultItem where
  | status
  | err
  | outv
  | outlen
  | result
  /-- OUT1[p]. -/
  | out1 (p : Nat)
  /-- OUT2[p]. -/
  | out2 (p : Nat)
  /-- OUTP[p]. -/
  | outp (p : Nat)
  /-- TBL row `i`, column `c`: 0 plain, 1 stage1, 2 stage2 (R22). -/
  | tbl (i c : Nat)
deriving DecidableEq, Repr

/-- The items the host can read (R30, R71). -/
inductive HostItem where
  | cmd
  | len
  /-- IN[p]. -/
  | inp (p : Nat)
  | res (r : ResultItem)
deriving DecidableEq, Repr

/-- The host's actions (R71), one step of the machine each. -/
inductive HostAction where
  /-- `WR IN[p], v`. -/
  | writeIn (p : Nat) (v : Byte)
  /-- `WR LEN, n`. -/
  | writeLen (n : Nat)
  /-- `ISSUE w`, the same as `WR CMD, w`. -/
  | issue (w : Word)
  /-- A write to an item the host may not write; it is ignored (R30, R71). -/
  | writeResult (r : ResultItem) (v : Nat)
  /-- `RD item`. -/
  | read (item : HostItem)
  /-- `RESET`. -/
  | reset
deriving DecidableEq, Repr

/-- What the interface answered to the host's last action. The MODEL's own, not the spec's (notes/assumptions/8.md). -/
inductive HostReply where
  /-- No action has been answered yet. -/
  | nothing
  /-- A write or a reset returned. -/
  | done
  /-- A read returned this number. -/
  | value (v : Nat)
  /-- The access named no element: the interface refused it and no state changed (R30, R43). -/
  | refused
deriving DecidableEq, Repr

/-- A buffer of 8-bit elements: (element index, code) pairs, indices strictly rising. An element that is not listed holds
no value (R32). -/
abbrev Memory := List Host.Cell

/-- Indices strictly rising, all above `lo` when a bound is given. -/
def Memory.risingFrom : Option Nat → Memory → Bool
  | _, [] => true
  | none, (a, _) :: rest => Memory.risingFrom (some a) rest
  | some lo, (a, _) :: rest => decide (lo < a) && Memory.risingFrom (some a) rest

/-- The canonical form of a buffer. What an unlisted element reads as is "no value", which no listed element is. -/
def Memory.wf (m : Memory) : Bool := Memory.risingFrom none m

/-- Everything R10 gives the engine but its constants (which are definitions: `lower`, `romVf`), then the model's own
fields. Widths and rules: INVENTORY.md, `## State`. -/
structure State where
  /-- MAXLEN, the open parameter (R5); nothing writes it. MODEL's field for a parameter (notes/assumptions/3.md). -/
  maxLen : Nat
  /-- CMD, the command register (R13). -/
  cmd : Word
  /-- LEN, of LEN_W bits (R14). -/
  len : Nat
  /-- IN, the message buffer (R15). -/
  inBuf : Memory
  /-- STATUS (R16). -/
  status : BitVec 2
  /-- ERR (R17). -/
  err : BitVec 3
  /-- OUTV (R18). -/
  outv : BitVec 5
  /-- OUTLEN, of LEN_W bits (R19). -/
  outlen : Nat
  /-- RESULT (R21). -/
  result : BitVec 1
  /-- OUT1 (R20). -/
  out1 : Memory
  /-- OUT2 (R20). -/
  out2 : Memory
  /-- OUTP (R20). -/
  outp : Memory
  /-- TBL (R22); row `i`, column `c` is element `3 * i + c` (notes/assumptions/14.md). -/
  tbl : Memory
  /-- K, the 5-bit shift latch (R23); it is 1 to 25 whenever it is read (R97; notes/assumptions/20.md). -/
  kLatch : Index
  /-- S, the Shifted Alphabet (R24). -/
  sTab : Table
  /-- T, the Target Alphabet (R24). -/
  tTab : Table
  /-- FWD, the forward map (R25). -/
  fwd : Table
  /-- BWD, the backward map (R25). -/
  bwd : Table
  /-- POS, the position counter (R26). -/
  pos : Nat
  /-- The host program still to run, next action first. MODEL's own (notes/assumptions/1.md). -/
  pending : List HostAction
  /-- The number of host actions taken, which numbers the free values. MODEL's own (notes/assumptions/5.md). -/
  freeCount : Nat
  /-- The interface's last answer to the host. MODEL's own (notes/assumptions/8.md). -/
  reply : HostReply
deriving DecidableEq, Repr

/-- A table of 26 zeros: the value S, T, FWD and BWD are given at reset, where R31 gives none (DESIGN CHOICE,
notes/assumptions/9.md). -/
def zeroTable : Table := Vector.replicate 26 0

/-- The state right after reset (R31, R170) of an engine whose MAXLEN is `n`: no host action pending. RESULT and the
scratch registers hold no value by R31; the zeros they are given are DESIGN CHOICE (notes/assumptions/9.md). -/
def State.resetOf (n : Nat) : State where
  maxLen := n
  cmd := 0
  len := 0
  inBuf := []
  status := 0
  err := 0
  outv := 0
  outlen := 0
  result := 0
  out1 := []
  out2 := []
  outp := []
  tbl := []
  kLatch := 0
  sTab := zeroTable
  tTab := zeroTable
  fwd := zeroTable
  bwd := zeroTable
  pos := 0
  pending := []
  freeCount := 0
  reply := .nothing

/-- The machine right after reset (R31), with the MAXLEN that the spec suggests. -/
def State.reset : State := State.resetOf Config.maxLen

end Sys2Proof.Machine
end

