-- ==== Sys2Proof/Machine/Flags.lean ====
section
/-! DEFINITION. The status and result registers: their codes, and how a command clears and sets them
(spec/10_state.md R16 to R19, spec/60_exceptions.md R150, spec/45_engine_commands.md R130). The engine has no carry,
overflow or zero flag (R90). -/

namespace Sys2Proof.Machine

/-- STATUS = IDLE: no command since reset (R16). -/
def statusIdle : BitVec 2 := 0

/-- STATUS = DONE: the last command completed (R16). -/
def statusDone : BitVec 2 := 1

/-- STATUS = ERROR: the last command was rejected (R16). -/
def statusError : BitVec 2 := 2

/-- ERR = NONE (R150). -/
def errNone : BitVec 3 := 0

/-- The error codes (R150). -/
def ErrorName.code : ErrorName → BitVec 3
  | .invalidCharacter => 1
  | .shiftOutOfRange => 2
  | .emptyInput => 3
  | .illegalCommand => 4
  | .tableFault => 5

/-- OUTV.V1: OUT1 holds the stage-1 ciphertext (R18). -/
def outvV1 : BitVec 5 := 0x01

/-- OUTV.V2: OUT2 holds the stage-2 ciphertext (R18). -/
def outvV2 : BitVec 5 := 0x02

/-- OUTV.VP: OUTP holds the recovered plaintext (R18). -/
def outvVP : BitVec 5 := 0x04

/-- OUTV.VR: RESULT holds the answer of IS_VALID (R18). -/
def outvVR : BitVec 5 := 0x08

/-- OUTV.VT: TBL holds the triples of MAP_TABLE (R18). -/
def outvVT : BitVec 5 := 0x10

/-- Whether every output bit of `mask` is set in OUTV. -/
def State.outputValid (s : State) (mask : BitVec 5) : Bool := (s.outv &&& mask) == mask

/-- What every issue does before its checks: OUTV and OUTLEN become 0, so that all outputs hold no value (R130). -/
def clearOutputs (s : State) : State := { s with outv := 0, outlen := 0 }

/-- The end of a command that completes: the OUTV bits and the OUTLEN its rule gives, STATUS = DONE, ERR = NONE
(R130). -/
def complete (mask : BitVec 5) (n : Nat) (s : State) : State :=
  { s with outv := mask, outlen := n, status := statusDone, err := errNone }

end Sys2Proof.Machine
end

