-- ==== Sys2Proof/Machine/Ops.lean ====
section
/-! DEFINITION. The named operations over buffers and registers, and the error entry (spec/20_memory.md R40 to R46,
spec/00_scope.md R5, spec/60_exceptions.md R159, R160). -/

namespace Sys2Proof.Machine

/-- `MemRead(space, a, 1)` on a buffer: the code of element `a`, or `none` where it holds no value (R32, R40). -/
def Memory.read : Memory → Nat → Option Byte
  | [], _ => none
  | (b, v) :: rest, a => if b = a then some v else Memory.read rest a

/-- `MemWrite(space, a, 1, v)` on a buffer (R40, R44): the canonical form is kept. -/
def Memory.write : Memory → Nat → Byte → Memory
  | [], a, v => [(a, v)]
  | (b, w) :: rest, a, v =>
    if a < b then (a, v) :: (b, w) :: rest
    else if a = b then (a, v) :: rest
    else (b, w) :: Memory.write rest a v

/-- A string written to consecutive elements from `a` up, first character first (R41). -/
def Memory.writeString : Memory → Nat → List Byte → Memory
  | m, _, [] => m
  | m, a, c :: cs => Memory.writeString (Memory.write m a c) (a + 1) cs

/-- LEN_W, the least `w` with `2^w > MAXLEN` (R5). -/
def lenWidth (maxLen : Nat) : Nat := Nat.log2 maxLen + 1

/-- The number that LEN holds after a write of `n`: its low LEN_W bits (R14, R44; notes/assumptions/4.md). -/
def lenBits (maxLen n : Nat) : Nat := n % 2 ^ lenWidth maxLen

/-- What a register array holds at a letter index. The indices that occur are 0 to 25 (R68, R141); the number answered
for the five other 5-bit indices is never used. -/
def tableGet (t : Table) (a : Index) : Index := if h : a.toNat < 26 then t[a.toNat] else 0

/-- `raise E`, the error entry (R159): STATUS and ERR, and nothing else; `clearOutputs` has run before. No program
counter, status or mode is saved and control goes nowhere. There is no return from an error: the next command starts from
`Issue` whatever STATUS and ERR are (R160), so no operation stands beside this one for it. -/
def raise (e : ErrorName) (s : State) : State := { s with status := statusError, err := e.code }

/-- The load of the shift latch K (R23, R130), made only after the range check, so that K is 1 to 25
whenever it is read (R97; notes/assumptions/20.md on its type). -/
def latchShift (k : Int) (s : State) : State := { s with kLatch := BitVec.ofInt 5 k }

/-- A string result stored in OUT1[0..n-1] by a per-character loop, which leaves POS at `n` (R20, R26). -/
def storeOut1 (str : List Byte) (s : State) : State :=
  { s with out1 := Memory.writeString s.out1 0 str, pos := str.length }

/-- A string result stored in OUT2[0..n-1]; see `storeOut1`. -/
def storeOut2 (str : List Byte) (s : State) : State :=
  { s with out2 := Memory.writeString s.out2 0 str, pos := str.length }

/-- A string result stored in OUTP[0..n-1]; see `storeOut1`. -/
def storeOutp (str : List Byte) (s : State) : State :=
  { s with outp := Memory.writeString s.outp 0 str, pos := str.length }

/-- The element of TBL that holds column `c` of row `i` (R22; notes/assumptions/14.md). -/
def tblIndex (i c : Nat) : Nat := 3 * i + c

/-- The 78 elements of TBL stored from row 0 column 0 on (R136). -/
def storeTbl (codes : List Byte) (s : State) : State :=
  { s with tbl := Memory.writeString s.tbl 0 codes }

/-- RESULT <- 1 for true, 0 for false (R21, R131). -/
def storeResult (b : Bool) (s : State) : State := { s with result := if b then 1 else 0 }

end Sys2Proof.Machine
end

