-- ==== Sys2Proof/Machine/Operands.lean ====
section
/-! DEFINITION. The operands of the commands: character codes, the message, the shift (spec/30_encoding.md R63, R67, R68;
spec/40_validation.md R80, R81). -/

namespace Sys2Proof.Machine

/-- The one code that is a space (R67). -/
def spaceCode : Byte := 0x20

/-- R67. -/
def isSpace (c : Byte) : Bool := c == spaceCode

/-- R67. -/
def isUpper (c : Byte) : Bool := decide (0x41 ≤ c.toNat) && decide (c.toNat ≤ 0x5A)

/-- R67. -/
def isLower (c : Byte) : Bool := decide (0x61 ≤ c.toNat) && decide (c.toNat ≤ 0x7A)

/-- R67. -/
def isLetter (c : Byte) : Bool := isUpper c || isLower c

/-- The letter index of a letter code, either case: the case fold (R67). It is not defined for any other code, and no
rule applies it to one; every use of it here is on a letter of a validated message (R125). -/
def idx (c : Byte) : Index :=
  if isUpper c then (c - 0x41).setWidth 5 else (c - 0x61).setWidth 5

/-- The upper-case code of a letter index (R67). -/
def upper (i : Index) : Byte := 0x41 + i.setWidth 8

/-- The lower-case code of a letter index (R67); also ROM_ALPHA (R11). -/
def lower (i : Index) : Byte := 0x61 + i.setWidth 8

/-- The accepted character set (R80). -/
def accepted (c : Byte) : Bool := isSpace c || isUpper c || isLower c

/-- `IsValidText` (R81) of a string. -/
def isValidText (str : List Byte) : Bool := str.all accepted

/-- `lowercase(msg)`: every letter replaced by `lower(idx(letter))`, every space kept (R95). -/
def lowercase (str : List Byte) : List Byte :=
  str.map fun c => if isSpace c then spaceCode else lower (idx c)

/-- The byte a command finds in IN[p]: the element's code, or an unspecified byte where the host has written none since
reset (R32; notes/assumptions/5.md). -/
def inByte (s : State) (p : Nat) : Byte :=
  match Memory.read s.inBuf p with
  | some c => c
  | none => Config.freeByte s.freeCount p

/-- The message operand: IN[0..LEN-1] (R15, R41). -/
def readMessage (s : State) : List Byte := (List.range s.len).map (inByte s)

/-- The legal shifts, 1 to 25 (R5, R63). -/
def shiftInRange (k : Int) : Bool := decide (1 ≤ k) && decide (k ≤ 25)

end Sys2Proof.Machine
end

