-- ==== Sys2Proof/Machine/Caesar.lean ====
section
/-! DEFINITION. Sub-block caesar_shift_stage (spec/41_caesar_shift_stage.md R90 to R97). -/

namespace Sys2Proof.Machine

/-- `emod(a, 26)`, the Euclidean remainder (R90). -/
def emod26 (a : Int) : Int := Int.emod a 26

/-- `shift_forward` (R91): exact on integers, then narrowed to a letter index (R96). A shift outside 1 to 25 never reaches
the stage (R97); that this total function answers there is DESIGN CHOICE (notes/assumptions/20.md), unsafe only for a
claim about such a shift. -/
def shiftForward (a k : Index) : Index := BitVec.ofInt 5 (emod26 (a.toNat + k.toNat))

/-- `shift_backward` (R92); for a shift outside 1 to 25 as at `shiftForward` (notes/assumptions/20.md). -/
def shiftBackward (a k : Index) : Index := BitVec.ofInt 5 (emod26 (a.toNat - k.toNat))

/-- `encrypt_stage1` (R93). -/
def encryptStage1 (str : List Byte) (k : Index) : List Byte :=
  str.map fun c => if isSpace c then spaceCode else upper (shiftForward (idx c) k)

/-- `decrypt_stage1` (R94). -/
def decryptStage1 (str : List Byte) (k : Index) : List Byte :=
  str.map fun c => if isSpace c then spaceCode else lower (shiftBackward (idx c) k)

end Sys2Proof.Machine
end

