-- ==== Sys2Proof/Machine/Lookup.lean ====
section
/-! DEFINITION. Sub-block character_lookup_cipher, datapath part (spec/44_character_lookup_cipher.md R120 to R125). -/

namespace Sys2Proof.Machine

/-- The common datapath of `apply_forward` and `apply_backward` (R120): a space passes, a letter is looked up. -/
def substitute (map : Table) (str : List Byte) : List Byte :=
  str.map fun c => if isSpace c then spaceCode else upper (tableGet map (idx c))

/-- `apply_forward` (R121). -/
def applyForward (fwd : Table) (str : List Byte) : List Byte := substitute fwd str

/-- `apply_backward` (R122). -/
def applyBackward (bwd : Table) (str : List Byte) : List Byte := substitute bwd str

end Sys2Proof.Machine
end

