-- ==== Sys2Proof/Machine/Tables.lean ====
section
/-! DEFINITION. Sub-blocks permutation_table_builder and bijection_mapper (spec/42_permutation_table_builder.md R100 to
R107, spec/43_bijection_mapper.md R110 to R115), and the constant ROM_VF (spec/10_state.md R12). -/

namespace Sys2Proof.Machine

/-- ROM_VF: A E I O U, then the other 21 letters in alphabet order (R12). -/
def romVf : Table :=
  #v[0, 4, 8, 14, 20, 1, 2, 3, 5, 6, 7, 9, 10, 11, 12, 13, 15, 16, 17, 18, 19, 21, 22, 23, 24, 25]

/-- The table whose entry `i` is `f i`: the loop `for i in 0 .. 25: A[i] <- f(i)`. -/
def tableOf (f : Nat → Index) : Table := ⟨⟨(List.range 26).map f⟩, by simp⟩

/-- The table S of `BuildS(K)` (R100), for a K in 1 to 25 (notes/assumptions/20.md). -/
def shiftedAlphabet (k : Index) : Table := tableOf fun i => shiftForward (BitVec.ofNat 5 i) k

/-- The table T of the REVERSED variant (R103). -/
def reversedAlphabet (s : Table) : Table := tableOf fun i => tableGet s (BitVec.ofNat 5 (25 - i))

/-- `BuildS(K)` (R100): S is written from the latch K. -/
def buildS (s : State) : State := { s with sTab := shiftedAlphabet s.kLatch }

/-- `BuildT(S, var)` (R101): T by the variant; it is not called for NONE (R102). -/
def buildT (var : Variant) (s : State) : State :=
  match var with
  | .none => s
  | .reversed => { s with tTab := reversedAlphabet s.sTab }
  | .vowelFirst => { s with tTab := romVf }

/-- `IsPerm(A)` (R111): for every `v` in 0..25 there is exactly one `i` with `A[i] = v`. -/
def isPerm (a : Table) : Bool :=
  (List.range 26).all fun v => (a.toList.filter fun x => x.toNat == v).length == 1

/-- The writes `m[a] <- b` of a list of pairs `(a, b)`, in their order. -/
def writePairs : List (Index × Index) → List Index → List Index
  | [], m => m
  | (a, b) :: rest, m => writePairs rest (m.set a.toNat b)

theorem writePairs_length (ps : List (Index × Index)) (m : List Index) : (writePairs ps m).length = m.length := by
  induction ps generalizing m with
  | nil => rfl
  | cons p rest ih => simp [writePairs, ih]

/-- The map that sends `src[i]` to `dst[i]` for every position (R110): one write per position, in the order of the
positions. Every entry is written when `src` is a permutation of 0..25, the only case in which the map is used. -/
def pairedMap (src dst : Table) : Table :=
  ⟨⟨writePairs (src.toList.zip dst.toList) (List.replicate 26 0)⟩, by simp [writePairs_length]⟩

/-- The second half of `BuildMaps` (R110): FWD and BWD from S and T. -/
def writeMaps (s : State) : State :=
  { s with fwd := pairedMap s.sTab s.tTab, bwd := pairedMap s.tTab s.sTab }

/-- `BuildMaps(S, T)` (R110) and what follows it: TABLE_FAULT, before any entry is written, when S or T is no permutation
(R111), else FWD and BWD are written and the command goes on with `rest`. -/
def buildMaps (rest : State → State) (s : State) : State :=
  if isPerm s.sTab && isPerm s.tTab then rest (writeMaps s) else raise .tableFault s

end Sys2Proof.Machine
end

