-- ==== Sys2Proof/Machine/Commands.lean ====
section
/-! DEFINITION. The part of `Issue` after `Decode` that commands share: its checks in their order, and the bodies
(spec/45_engine_commands.md R130 to R136, spec/60_exceptions.md R158). -/

namespace Sys2Proof.Machine

/-- A command that reads the message (R130): the outputs lose their value; LEN > MAXLEN ends it with ILLEGAL_COMMAND;
else it goes on. -/
def messageCommand (rest : State → State) (s : State) : State :=
  let s := clearOutputs s
  if s.maxLen < s.len then raise .illegalCommand s else rest s

/-- The shift check and the load of K (R130): outside 1 to 25 the command ends with SHIFT_OUT_OF_RANGE. -/
def checkShift (k : Int) (rest : State → State) (s : State) : State :=
  if shiftInRange k then rest s else raise .shiftOutOfRange s

/-- The scan of the message by `IsValidText` (R81, R83): POS runs to LEN (R26), and an invalid text ends a cipher command
with INVALID_CHARACTER. -/
def checkText (rest : State → State) (s : State) : State :=
  let s' := { s with pos := s.len }
  if isValidText (readMessage s) then rest s' else raise .invalidCharacter s'

/-- A cipher command (R130): the checks in the order of R158, the load of K, then the body. -/
def cipherCommand (k : Int) (body : State → State) (s : State) : State :=
  messageCommand (checkShift k (checkText fun t => body (latchShift k t))) s

/-- The body of IS_VALID (R131). -/
def isValidBody (s : State) : State :=
  complete outvVR 0 (storeResult (isValidText (readMessage s)) { s with pos := s.len })

/-- The body of ENC_CAESAR (R132). -/
def encCaesarBody (s : State) : State :=
  complete outvV1 s.len (storeOut1 (encryptStage1 (readMessage s) s.kLatch) s)

/-- The body of DEC_CAESAR (R133). -/
def decCaesarBody (s : State) : State :=
  complete outvVP s.len (storeOutp (decryptStage1 (readMessage s) s.kLatch) s)

/-- The body of ENC_DOUBLE after its tables are built (R134). -/
def encDoubleStrings (s : State) : State :=
  let ct1 := encryptStage1 (readMessage s) s.kLatch
  complete (outvV1 ||| outvV2) s.len (storeOut2 (applyForward s.fwd ct1) (storeOut1 ct1 s))

/-- The body of ENC_DOUBLE (R134). -/
def encDoubleBody (var : Variant) (s : State) : State :=
  buildMaps encDoubleStrings (buildT var (buildS s))

/-- The body of DEC_DOUBLE after its tables are built (R135); the intermediate string is not delivered. -/
def decDoubleStrings (s : State) : State :=
  let ct1 := applyBackward s.bwd (readMessage s)
  complete outvVP s.len (storeOutp (decryptStage1 ct1 s.kLatch) s)

/-- The body of DEC_DOUBLE (R135). -/
def decDoubleBody (var : Variant) (s : State) : State :=
  buildMaps decDoubleStrings (buildT var (buildS s))

/-- The elements of TBL in order (R136): for each position the plain letter, its stage-1 and its stage-2 letter. -/
def tableCodes (s t : Table) : List Byte :=
  (List.range 26).flatMap fun i =>
    [lower (BitVec.ofNat 5 i), upper (tableGet s (BitVec.ofNat 5 i)), upper (tableGet t (BitVec.ofNat 5 i))]

/-- The body of MAP_TABLE after its tables are built (R136). -/
def mapTableRows (s : State) : State :=
  complete outvVT 0 (storeTbl (tableCodes s.sTab s.tTab) s)

/-- The body of MAP_TABLE (R136): it reads neither IN nor LEN and needs no map. -/
def mapTableBody (var : Variant) (s : State) : State :=
  mapTableRows (buildT var (buildS s))

/-- A MAP_TABLE command (R130): the only check after `Decode` is the shift's. -/
def mapTableCommand (k : Int) (var : Variant) (s : State) : State :=
  checkShift k (fun t => mapTableBody var (latchShift k t)) (clearOutputs s)

end Sys2Proof.Machine
end

