-- ==== Sys2Proof/Machine/CaesarCommands.lean ====
section
/-! DEFINITION. The meanings of ENC_CAESAR and DEC_CAESAR (spec/45_engine_commands.md R132, R133). -/

namespace Sys2Proof.Machine

/-- ENC_CAESAR k (R132). -/
def execEncCaesar (k : Int) (s : State) : Host.Outcome State Fault Refusal :=
  .next (cipherCommand k encCaesarBody s)

/-- DEC_CAESAR k (R133). -/
def execDecCaesar (k : Int) (s : State) : Host.Outcome State Fault Refusal :=
  .next (cipherCommand k decCaesarBody s)

end Sys2Proof.Machine
end

