-- ==== Sys2Proof/Machine/DoubleCommands.lean ====
section
/-! DEFINITION. The meanings of ENC_DOUBLE and DEC_DOUBLE in both variants (spec/45_engine_commands.md R134, R135). -/

namespace Sys2Proof.Machine

/-- ENC_DOUBLE.REV k (R134). -/
def execEncDoubleRev (k : Int) (s : State) : Host.Outcome State Fault Refusal :=
  .next (cipherCommand k (encDoubleBody .reversed) s)

/-- ENC_DOUBLE.VF k (R134). -/
def execEncDoubleVf (k : Int) (s : State) : Host.Outcome State Fault Refusal :=
  .next (cipherCommand k (encDoubleBody .vowelFirst) s)

/-- DEC_DOUBLE.REV k (R135). -/
def execDecDoubleRev (k : Int) (s : State) : Host.Outcome State Fault Refusal :=
  .next (cipherCommand k (decDoubleBody .reversed) s)

/-- DEC_DOUBLE.VF k (R135). -/
def execDecDoubleVf (k : Int) (s : State) : Host.Outcome State Fault Refusal :=
  .next (cipherCommand k (decDoubleBody .vowelFirst) s)

end Sys2Proof.Machine
end

