-- ==== Sys2Proof/Machine/MapTable.lean ====
section
/-! DEFINITION. The meanings of MAP_TABLE in both variants (spec/45_engine_commands.md R136). -/

namespace Sys2Proof.Machine

/-- MAP_TABLE.REV k (R136). -/
def execMapTableRev (k : Int) (s : State) : Host.Outcome State Fault Refusal :=
  .next (mapTableCommand k .reversed s)

/-- MAP_TABLE.VF k (R136). -/
def execMapTableVf (k : Int) (s : State) : Host.Outcome State Fault Refusal :=
  .next (mapTableCommand k .vowelFirst s)

end Sys2Proof.Machine
end

