-- ==== Sys2Proof/Machine/Validity.lean ====
section
/-! DEFINITION. The meaning of IS_VALID (spec/45_engine_commands.md R131). -/

namespace Sys2Proof.Machine

/-- IS_VALID (R131): never INVALID_CHARACTER, never SHIFT_OUT_OF_RANGE. -/
def execIsValid (s : State) : Host.Outcome State Fault Refusal :=
  .next (messageCommand isValidBody s)

end Sys2Proof.Machine
end

