-- ==== Sys2Proof/Machine/Dispatch.lean ====
section
/-! DEFINITION. One arm per command. -/

namespace Sys2Proof.Machine

def exec (i : Instr) (s : State) : Host.Outcome State Fault Refusal :=
  match i with
  | .isValid => Sys2Proof.Machine.execIsValid s
  | .encCaesar k => Sys2Proof.Machine.execEncCaesar k s
  | .decCaesar k => Sys2Proof.Machine.execDecCaesar k s
  | .encDoubleRev k => Sys2Proof.Machine.execEncDoubleRev k s
  | .encDoubleVf k => Sys2Proof.Machine.execEncDoubleVf k s
  | .decDoubleRev k => Sys2Proof.Machine.execDecDoubleRev k s
  | .decDoubleVf k => Sys2Proof.Machine.execDecDoubleVf k s
  | .mapTableRev k => Sys2Proof.Machine.execMapTableRev k s
  | .mapTableVf k => Sys2Proof.Machine.execMapTableVf k s

end Sys2Proof.Machine
end

