-- ==== Sys2Proof/Machine/HostPort.lean ====
section
/-! DEFINITION. The host interface: what each host action does (spec/30_encoding.md R70, R71, spec/10_state.md R30,
spec/20_memory.md R43 to R47, spec/70_reset_and_hazards.md R170). -/

namespace Sys2Proof.Machine

/-- `WR IN[p], v`: an index at or above MAXLEN names no element and is refused with no change of state (R30, R43). -/
def hostWriteIn (p : Nat) (v : Byte) (s : State) : State :=
  if p < s.maxLen then { s with inBuf := Memory.write s.inBuf p v, reply := .done } else { s with reply := .refused }

/-- `WR LEN, n` (R14, R71). -/
def hostWriteLen (n : Nat) (s : State) : State :=
  { s with len := lenBits s.maxLen n, reply := .done }

/-- Whether a result item names an element of the machine (R30). -/
def ResultItem.present (maxLen : Nat) : ResultItem → Bool
  | .out1 p => decide (p < maxLen)
  | .out2 p => decide (p < maxLen)
  | .outp p => decide (p < maxLen)
  | .tbl i c => decide (i < 26) && decide (c < 3)
  | .status => true
  | .err => true
  | .outv => true
  | .outlen => true
  | .result => true

/-- A write to an item the host may not write: ignored (R30), or refused where it names no element (R43). -/
def hostWriteResult (r : ResultItem) (s : State) : State :=
  if r.present s.maxLen then { s with reply := .done } else { s with reply := .refused }

/-- What a host read of element `a` of an output buffer returns: the element while `valid` says that it holds a value,
else an unspecified byte (R20, R32). -/
def outputByte (s : State) (valid : Bool) (m : Memory) (a : Nat) : Byte :=
  match valid, Memory.read m a with
  | true, some c => c
  | _, _ => Config.freeByte s.freeCount a

/-- What `RD` of a result item returns (R71), as a number; for an item that holds no value, an unspecified one (R32). -/
def readResult (s : State) : ResultItem → Nat
  | .status => s.status.toNat
  | .err => s.err.toNat
  | .outv => s.outv.toNat
  | .outlen => s.outlen
  | .result => (if s.outputValid outvVR then s.result else Config.freeBit s.freeCount).toNat
  | .out1 p => (outputByte s (s.outputValid outvV1 && decide (p < s.outlen)) s.out1 p).toNat
  | .out2 p => (outputByte s (s.outputValid outvV2 && decide (p < s.outlen)) s.out2 p).toNat
  | .outp p => (outputByte s (s.outputValid outvVP && decide (p < s.outlen)) s.outp p).toNat
  | .tbl i c => (outputByte s (s.outputValid outvVT) s.tbl (tblIndex i c)).toNat

/-- The answer to `RD item`: refused where the index names no element (R30, R43). -/
def readItem (s : State) : HostItem → HostReply
  | .cmd => .value s.cmd.toNat
  | .len => .value s.len
  | .inp p => if p < s.maxLen then .value (inByte s p).toNat else .refused
  | .res r => if r.present s.maxLen then .value (readResult s r) else .refused

/-- `RD item`: it changes nothing (R44, R71) but the interface's answer. -/
def hostRead (item : HostItem) (s : State) : State := { s with reply := readItem s item }

/-- `RESET` (R170): every piece of engine state at its reset value. MAXLEN is no state, and the host's program and the
count of its actions are not the engine's (notes/assumptions/1.md). -/
def hostReset (s : State) : State :=
  { State.resetOf s.maxLen with pending := s.pending, freeCount := s.freeCount, reply := .done }

/-- `ISSUE w` (R130): CMD <- w, then the command the word spells, or ILLEGAL_COMMAND where it spells none (R65). -/
def issue (w : Word) (s : State) : Host.Outcome State Fault Refusal :=
  let s := { s with cmd := w, reply := .done }
  match decode w with
  | .ok i => exec i s
  | .error _ => .next (raise .illegalCommand (clearOutputs s))

/-- One host action. -/
def hostAction (a : HostAction) (s : State) : Host.Outcome State Fault Refusal :=
  match a with
  | .writeIn p v => .next (hostWriteIn p v s)
  | .writeLen n => .next (hostWriteLen n s)
  | .issue w => issue w s
  | .writeResult r _ => .next (hostWriteResult r s)
  | .read item => .next (hostRead item s)
  | .reset => .next (hostReset s)

/-- The state in which the host's next action acts: the action is taken from the host's program, and counted. -/
def takeAction (rest : List HostAction) (s : State) : State :=
  { s with pending := rest, freeCount := s.freeCount + 1 }

/-- `WR IN[p], code` for each position of a string in order, from position `p` (R70). -/
def writeInFrom : Nat → List Byte → List HostAction
  | _, [] => []
  | p, c :: cs => .writeIn p c :: writeInFrom (p + 1) cs

/-- The host-side pseudo-instruction `LOADSTR` (R70): the string into IN from element 0, then its length into LEN. -/
def loadStr (str : List Byte) : List HostAction := writeInFrom 0 str ++ [.writeLen str.length]

/-- `RD OUTx[p]` and `WR IN[p]` of the value read, for `n` positions from `p` up (R70), from the state `s` on. A read is
answered in the state that counts it (`takeAction`), so each write carries the very value that the read before it
answers, also where OUTx holds no value (R32; notes/assumptions/19.md). -/
def copyFrom (item : Nat → ResultItem) (s : State) : Nat → Nat → List HostAction
  | 0, _ => []
  | n + 1, p =>
    .read (.res (item p)) ::
      .writeIn p (BitVec.ofNat 8 (readResult { s with freeCount := s.freeCount + 1 } (item p))) ::
        copyFrom item { s with freeCount := s.freeCount + 2 } n (p + 1)

/-- The host-side pseudo-instruction `COPYBACK` (R70) of the output buffer whose element `p` is `item p`, as the host
runs it from the state `s` on: read OUTLEN, copy that many elements to IN, write LEN. -/
def copyBack (item : Nat → ResultItem) (s : State) : List HostAction :=
  .read (.res .outlen) ::
    (copyFrom item { s with freeCount := s.freeCount + 1 } s.outlen 0 ++ [.writeLen s.outlen])

end Sys2Proof.Machine
end

