-- ==== Sys2Proof/Machine/Step.lean ====
section
/-! DEFINITION. One step: the host's next action, with a whole command inside an issue (spec/00_scope.md R6,
spec/20_memory.md R47). -/

namespace Sys2Proof.Machine

/-- One step: the host's next action; with none left the engine idles, which changes nothing (R47, R173). -/
def step (s : State) : Host.Outcome State Fault Refusal :=
  match s.pending with
  | [] => .next s
  | a :: rest => hostAction a (takeAction rest s)

/-- The state `s` with the host about to issue the given command word, before the rest of its program. -/
def State.withFetchWord (s : State) (nbits w : Nat) : State :=
  { s with pending := .issue (tableWord nbits w) :: s.pending }

end Sys2Proof.Machine
end

