-- ==== Sys2Proof/Safety.lean ====
section
/-! DEFINITION. What counts as a good run, the invariants, and the terms that statements use
(spec/70_reset_and_hazards.md R173, spec/60_exceptions.md R159, spec/45_engine_commands.md R130 to R139). -/

namespace Sys2Proof.Machine

/-! ### Commands by what they take (R130) -/

/-- The shift operand of a command, `none` for IS_VALID, the one command that takes no shift. -/
def shiftOf : Instr → Option Int
  | .isValid => none
  | .encCaesar k => some k
  | .decCaesar k => some k
  | .encDoubleRev k => some k
  | .encDoubleVf k => some k
  | .decDoubleRev k => some k
  | .decDoubleVf k => some k
  | .mapTableRev k => some k
  | .mapTableVf k => some k

/-- The four cipher commands, in all their variants: those that raise INVALID_CHARACTER (R130). -/
def isCipher : Instr → Bool
  | .isValid => false
  | .encCaesar _ => true
  | .decCaesar _ => true
  | .encDoubleRev _ => true
  | .encDoubleVf _ => true
  | .decDoubleRev _ => true
  | .decDoubleVf _ => true
  | .mapTableRev _ => false
  | .mapTableVf _ => false

/-- The commands that read LEN and the message: all but MAP_TABLE (R130). -/
def readsMessage : Instr → Bool
  | .isValid => true
  | .encCaesar _ => true
  | .decCaesar _ => true
  | .encDoubleRev _ => true
  | .encDoubleVf _ => true
  | .decDoubleRev _ => true
  | .decDoubleVf _ => true
  | .mapTableRev _ => false
  | .mapTableVf _ => false

/-- The encrypting command of a variant (R137). -/
def encryptWith : Variant → Int → Instr
  | .none, k => .encCaesar k
  | .reversed, k => .encDoubleRev k
  | .vowelFirst, k => .encDoubleVf k

/-- The decrypting command of a variant (R137). -/
def decryptWith : Variant → Int → Instr
  | .none, k => .decCaesar k
  | .reversed, k => .decDoubleRev k
  | .vowelFirst, k => .decDoubleVf k

/-- The buffer that holds a variant's ciphertext: OUT1 for the plain Caesar cipher, OUT2 for the double ciphers (R137). -/
def cipherText : Variant → State → Memory
  | .none, s => s.out1
  | .reversed, s => s.out2
  | .vowelFirst, s => s.out2

/-! ### The preconditions of R130 -/

/-- LEN does not exceed MAXLEN. -/
def MessageFits (s : State) : Prop := s.len ≤ s.maxLen

/-- The shift is legal (R63). -/
def ShiftLegal (k : Int) : Prop := 1 ≤ k ∧ k ≤ 25

/-- Every character of the message is accepted (R80, R81). -/
def TextValid (s : State) : Prop := ∀ p, p < s.len → accepted (inByte s p) = true

/-! ### The per-character functions of R132 to R139 -/

/-- A space gives a space; a letter of index `a` gives the letter of index `emod(f a, 26)`, in upper case. -/
def upperChar (f : Int → Int) (c : Byte) : Byte :=
  if c = 0x20 then 0x20 else upper (BitVec.ofInt 5 (f (idx c).toNat % 26))

/-- A space gives a space; a letter of index `a` gives the letter of index `emod(f a, 26)`, in lower case. -/
def lowerChar (f : Int → Int) (c : Byte) : Byte :=
  if c = 0x20 then 0x20 else lower (BitVec.ofInt 5 (f (idx c).toNat % 26))

/-- The vowel-first order as R12 lists it, as a function of the position. -/
def vowelFirst (i : Int) : Int :=
  ([0, 4, 8, 14, 20, 1, 2, 3, 5, 6, 7, 9, 10, 11, 12, 13, 15, 16, 17, 18, 19, 21, 22, 23, 24, 25] : List Int).getD i.toNat 0

/-- VFINV, the inverse order as R114 lists it. -/
def vowelFirstInverse (b : Int) : Int :=
  ([0, 5, 6, 7, 1, 8, 9, 10, 2, 11, 12, 13, 14, 15, 3, 16, 17, 18, 19, 20, 4, 21, 22, 23, 24, 25] : List Int).getD b.toNat 0

/-! ### What changes -/

/-- The error entry (R130, R159): STATUS = ERROR, ERR the code, OUTV and OUTLEN cleared, all else unchanged. POS is left
open: scratch holds no value after a command (R32). -/
def ErrorEntry (e : ErrorName) (s t : State) : Prop :=
  t = { s with status := statusError, err := e.code, outv := 0, outlen := 0, pos := t.pos }

/-- `after` holds the string `f 0 … f (n-1)` in its elements below `n`, and above them what `before` holds. -/
def StringStored (before after : Memory) (n : Nat) (f : Nat → Byte) : Prop :=
  (∀ p, p < n → Memory.read after p = some (f p)) ∧ ∀ p, n ≤ p → Memory.read after p = Memory.read before p

/-- The two states give a command the same inputs: LEN, MAXLEN and the message (R7). -/
def SameInputs (s t : State) : Prop :=
  s.maxLen = t.maxLen ∧ s.len = t.len ∧ ∀ p, p < s.len → inByte s p = inByte t p

/-- The two states agree on STATUS, ERR, OUTV, OUTLEN and on every output that holds a value (R18, R32). -/
def SameResults (s t : State) : Prop :=
  s.status = t.status ∧ s.err = t.err ∧ s.outv = t.outv ∧ s.outlen = t.outlen ∧
  (s.outputValid outvV1 = true → ∀ p, p < s.outlen → Memory.read s.out1 p = Memory.read t.out1 p) ∧
  (s.outputValid outvV2 = true → ∀ p, p < s.outlen → Memory.read s.out2 p = Memory.read t.out2 p) ∧
  (s.outputValid outvVP = true → ∀ p, p < s.outlen → Memory.read s.outp p = Memory.read t.outp p) ∧
  (s.outputValid outvVR = true → s.result = t.result) ∧
  (s.outputValid outvVT = true → ∀ a, a < 78 → Memory.read s.tbl a = Memory.read t.tbl a)

/-! ### Invariants -/

/-- No element at or above `n` holds a value. -/
def BoundedBy (n : Nat) (m : Memory) : Prop := ∀ a, n ≤ a → Memory.read m a = none

/-- Every buffer is in canonical form and within its index range (R40), and LEN fits its width (R14). -/
def BuffersInForm (s : State) : Prop :=
  s.len < 2 ^ lenWidth s.maxLen ∧
  (Memory.wf s.inBuf = true ∧ BoundedBy s.maxLen s.inBuf) ∧
  (Memory.wf s.out1 = true ∧ BoundedBy s.maxLen s.out1) ∧
  (Memory.wf s.out2 = true ∧ BoundedBy s.maxLen s.out2) ∧
  (Memory.wf s.outp = true ∧ BoundedBy s.maxLen s.outp) ∧
  (Memory.wf s.tbl = true ∧ BoundedBy 78 s.tbl)

/-- The result registers hold only the values the engine writes (R16 to R19, R150): STATUS is never 3, ERR never 3, 5, 6
or 7, STATUS = ERROR exactly when ERR is not 0, OUTV is one of the six masks, and after an error nothing is valid. -/
def ResultCodesLegal (s : State) : Prop :=
  s.status ≠ 3 ∧
  (s.err = 0 ∨ s.err = 1 ∨ s.err = 2 ∨ s.err = 4) ∧
  (s.status = statusError ↔ s.err ≠ 0) ∧
  (s.outv = 0x00 ∨ s.outv = 0x01 ∨ s.outv = 0x03 ∨ s.outv = 0x04 ∨ s.outv = 0x08 ∨ s.outv = 0x10) ∧
  (s.status ≠ statusDone → s.outv = 0 ∧ s.outlen = 0) ∧
  s.outlen ≤ s.maxLen

/-- The element holds an upper-case letter or a space. -/
def HoldsUpperOrSpace (m : Memory) (p : Nat) : Prop :=
  ∃ c, Memory.read m p = some c ∧ (c = 0x20 ∨ isUpper c = true)

/-- The element holds a lower-case letter or a space. -/
def HoldsLowerOrSpace (m : Memory) (p : Nat) : Prop :=
  ∃ c, Memory.read m p = some c ∧ (c = 0x20 ∨ isLower c = true)

/-- The element holds an upper-case letter. -/
def HoldsUpper (m : Memory) (p : Nat) : Prop := ∃ c, Memory.read m p = some c ∧ isUpper c = true

/-- Every output whose OUTV bit is 1 does hold a result, in the case that R20, R22 and R123 give it. -/
def OutputsHoldResults (s : State) : Prop :=
  (s.outputValid outvV1 = true → ∀ p, p < s.outlen → HoldsUpperOrSpace s.out1 p) ∧
  (s.outputValid outvV2 = true → ∀ p, p < s.outlen → HoldsUpperOrSpace s.out2 p) ∧
  (s.outputValid outvVP = true → ∀ p, p < s.outlen → HoldsLowerOrSpace s.outp p) ∧
  (s.outputValid outvVT = true → ∀ i, i < 26 →
    Memory.read s.tbl (tblIndex i 0) = some (lower (BitVec.ofNat 5 i)) ∧
    HoldsUpper s.tbl (tblIndex i 1) ∧ HoldsUpper s.tbl (tblIndex i 2))

/-- Every entry of a register array is a letter index. -/
def IndexTable (t : Table) : Prop := ∀ i : Fin 26, t[i.val].toNat < 26

/-- The 5-bit values 26 to 31 do not occur in K, S, T, FWD or BWD (R68). -/
def ScratchIndicesLegal (s : State) : Prop :=
  s.kLatch.toNat < 26 ∧ IndexTable s.sTab ∧ IndexTable s.tTab ∧ IndexTable s.fwd ∧ IndexTable s.bwd

/-- All the invariants together. -/
def State.Inv (s : State) : Prop :=
  BuffersInForm s ∧ ResultCodesLegal s ∧ OutputsHoldResults s ∧ ScratchIndicesLegal s

/-- The last command completed. A run is good when no command of it ended in an error that its host did not intend
(R173): the engine itself cannot be stuck, so there is no other way for a run to go wrong. -/
def endedWell (s : State) : Bool := (s.status == statusDone) && (s.err == errNone)

end Sys2Proof.Machine
end

