-- ==== Sys2Proof/Certificates/Slice0/Obligations.lean ====
section
/-! DEFINITION. The statements for the provers. Each docstring names the rules it formalises, or the entry of the
assumption log where a clause is the model's own choice. -/

open Sys2Proof Sys2Proof.Machine

/-! ### Encoding -/

/-- R64, R69: one word of every row of the opcode map, and four words that spell no command, as the decoder reads them. -/
def Obligations.ReferenceWordsDecode : Prop :=
  decode 0x0001 = .ok .isValid ∧ decode 0x1A02 = .ok (.encCaesar 26) ∧ decode 0x1903 = .ok (.decCaesar 25) ∧
  decode 0x030C = .ok (.encDoubleRev 3) ∧ decode 0x0314 = .ok (.encDoubleVf 3) ∧
  decode 0xFF0D = .ok (.decDoubleRev (-1)) ∧ decode 0x8015 = .ok (.decDoubleVf (-128)) ∧
  decode 0x7F0E = .ok (.mapTableRev 127) ∧ decode 0x0016 = .ok (.mapTableVf 0) ∧
  decode 0x0000 = .error .reservedOp ∧ decode 0x0101 = .error .shiftNotAdmitted ∧
  decode 0x031C = .error .reservedVariant ∧ decode 0x0322 = .error .reservedBits

/-- R66, R69: decoding the word of any command that can be spelled gives that command back, whatever its shift. -/
def Obligations.DecodeOfEncodeIsTheCommand : Prop :=
  ∀ i : Instr, i.wf = true → decode (encode i) = .ok i

/-- R65, R66: a legal word is the word of the command it decodes to (so two different legal words spell different
commands), and that command is well-formed. -/
def Obligations.EncodeOfDecodeIsTheWord : Prop :=
  ∀ (w : Word) (i : Instr), decode w = .ok i → encode i = w ∧ i.wf = true

/-- R64: the nine rows of the opcode map, with the shift operand of R63, and their disjointness. A word with no row is
illegal. -/
def Obligations.OpcodeMapIsExact : Prop :=
  ∀ w : Word,
    (decode w = .ok .isValid ↔ w &&& 0xFFFF = 0x0001) ∧
    (∀ k, decode w = .ok (.encCaesar k) ↔ w &&& 0x00FF = 0x0002 ∧ k = (w.extractLsb' 8 8).toInt) ∧
    (∀ k, decode w = .ok (.decCaesar k) ↔ w &&& 0x00FF = 0x0003 ∧ k = (w.extractLsb' 8 8).toInt) ∧
    (∀ k, decode w = .ok (.encDoubleRev k) ↔ w &&& 0x00FF = 0x000C ∧ k = (w.extractLsb' 8 8).toInt) ∧
    (∀ k, decode w = .ok (.encDoubleVf k) ↔ w &&& 0x00FF = 0x0014 ∧ k = (w.extractLsb' 8 8).toInt) ∧
    (∀ k, decode w = .ok (.decDoubleRev k) ↔ w &&& 0x00FF = 0x000D ∧ k = (w.extractLsb' 8 8).toInt) ∧
    (∀ k, decode w = .ok (.decDoubleVf k) ↔ w &&& 0x00FF = 0x0015 ∧ k = (w.extractLsb' 8 8).toInt) ∧
    (∀ k, decode w = .ok (.mapTableRev k) ↔ w &&& 0x00FF = 0x000E ∧ k = (w.extractLsb' 8 8).toInt) ∧
    (∀ k, decode w = .ok (.mapTableVf k) ↔ w &&& 0x00FF = 0x0016 ∧ k = (w.extractLsb' 8 8).toInt)

/-- R65: which words are illegal, and what issuing one does: CMD holds the word, STATUS = ERROR, ERR = 4, OUTV = 0 (and
OUTLEN = 0, as R130 and R159 clear it: R65 does not name it, notes/assumptions/16.md), nothing else of the engine
changes. The host's program, the count of its actions and
the interface's answer are the model's own fields. -/
def Obligations.IllegalWordsEndWithIllegalCommand : Prop :=
  ∀ (w : Word) (s : State) (rest : List HostAction),
    ((∃ e, decode w = .error e) ↔
      w.extractLsb' 0 3 = 0 ∨ w.extractLsb' 0 3 = 7 ∨ w.extractLsb' 5 3 ≠ 0 ∨ w.extractLsb' 3 2 = 3 ∨
      ((w.extractLsb' 0 3 = 1 ∨ w.extractLsb' 0 3 = 2 ∨ w.extractLsb' 0 3 = 3) ∧ w.extractLsb' 3 2 ≠ 0) ∨
      ((w.extractLsb' 0 3 = 4 ∨ w.extractLsb' 0 3 = 5 ∨ w.extractLsb' 0 3 = 6) ∧ w.extractLsb' 3 2 = 0) ∨
      (w.extractLsb' 0 3 = 1 ∧ w.extractLsb' 8 8 ≠ 0)) ∧
    (s.pending = .issue w :: rest → (∃ e, decode w = .error e) →
      step s = .next
        { s with
          cmd := w, status := statusError, err := 4, outv := 0, outlen := 0,
          pending := rest, freeCount := s.freeCount + 1, reply := .done })

/-! ### Characters and arithmetic -/

/-- R67: the character classes by their codes, that they are disjoint, that together they are the accepted characters,
and the operand functions `idx`, `upper`, `lower`. -/
def Obligations.CharacterClassesAndIndices : Prop :=
  (∀ c : Byte,
    (isSpace c = true ↔ c.toNat = 0x20) ∧
    (isUpper c = true ↔ 0x41 ≤ c.toNat ∧ c.toNat ≤ 0x5A) ∧
    (isLower c = true ↔ 0x61 ≤ c.toNat ∧ c.toNat ≤ 0x7A) ∧
    (isLetter c = true ↔ isUpper c = true ∨ isLower c = true) ∧
    (accepted c = true ↔ isSpace c = true ∨ isLetter c = true) ∧
    ¬ (isSpace c = true ∧ isUpper c = true) ∧ ¬ (isSpace c = true ∧ isLower c = true) ∧
    ¬ (isUpper c = true ∧ isLower c = true) ∧
    (isUpper c = true → (idx c).toNat + 0x41 = c.toNat) ∧
    (isLower c = true → (idx c).toNat + 0x61 = c.toNat)) ∧
  (∀ i : Index, i.toNat < 26 →
    (upper i).toNat = 0x41 + i.toNat ∧ (lower i).toNat = 0x61 + i.toNat ∧ idx (upper i) = i ∧ idx (lower i) = i)

/-- R80: the accepted codes are the 53 of the space and the letters of either case. -/
def Obligations.AcceptedCodes : Prop :=
  (∀ c : Byte, accepted c = true ↔
    c.toNat = 0x20 ∨ (0x41 ≤ c.toNat ∧ c.toNat ≤ 0x5A) ∨ (0x61 ≤ c.toNat ∧ c.toNat ≤ 0x7A)) ∧
  ((List.range 256).filter fun n => accepted (BitVec.ofNat 8 n)).length = 53

/-- R90: `emod(a, 26)` is the one remainder in 0 to 25, and its three cases in the range that occurs. -/
def Obligations.EuclideanRemainder : Prop :=
  ∀ a : Int,
    (0 ≤ emod26 a ∧ emod26 a ≤ 25 ∧ (26 : Int) ∣ a - emod26 a) ∧
    (∀ r : Int, 0 ≤ r → r ≤ 25 → (26 : Int) ∣ a - r → r = emod26 a) ∧
    (-25 ≤ a → a < 0 → emod26 a = a + 26) ∧ (0 ≤ a → a ≤ 25 → emod26 a = a) ∧ (26 ≤ a → a ≤ 50 → emod26 a = a - 26)

/-- R91, R92, for the letter indices and the latched shifts 1 to 25: the two index shifts, that each undoes the other,
that a forward shift fixes no letter, and that backward by `k` is forward by `26 - k`. -/
def Obligations.IndexShiftsAreInverse : Prop :=
  ∀ a k : Index, a.toNat < 26 → 1 ≤ k.toNat → k.toNat ≤ 25 →
    ((shiftForward a k).toNat : Int) = emod26 (a.toNat + k.toNat) ∧
    ((shiftBackward a k).toNat : Int) = emod26 (a.toNat - k.toNat) ∧
    shiftBackward (shiftForward a k) k = a ∧ shiftForward (shiftBackward a k) k = a ∧
    shiftForward a k ≠ a ∧ shiftBackward a k = shiftForward a (26 - k)

/-- R95: stage-1 decryption undoes stage-1 encryption on every valid message, up to case. -/
def Obligations.StageOneLeftInverse : Prop :=
  ∀ (msg : List Byte) (k : Index), isValidText msg = true → 1 ≤ k.toNat → k.toNat ≤ 25 →
    decryptStage1 (encryptStage1 msg k) k = lowercase msg

/-! ### Tables -/

/-- R100, R103, R104: what `BuildS` and `BuildT` write, from a latch K in 1 to 25, and that they write nothing else. -/
def Obligations.BuiltTablesAreTheAlphabets : Prop :=
  ∀ s : State, 1 ≤ s.kLatch.toNat → s.kLatch.toNat ≤ 25 →
    buildS s = { s with sTab := (buildS s).sTab } ∧
    buildT .reversed s = { s with tTab := (buildT .reversed s).tTab } ∧
    buildT .vowelFirst s = { s with tTab := (buildT .vowelFirst s).tTab } ∧
    ∀ i : Fin 26,
      (buildS s).sTab[i.val].toNat = (i.val + s.kLatch.toNat) % 26 ∧
      (buildT .reversed s).tTab[i.val] = s.sTab[25 - i.val] ∧
      ((buildT .vowelFirst s).tTab[i.val].toNat : Int) = vowelFirst i.val

/-- R106: for every legal shift S, and T of either variant, hold each of the indices 0 to 25 exactly once, and the tables
S of two different shifts differ. -/
def Obligations.BuiltTablesArePermutations : Prop :=
  (∀ (k : Index) (v : Nat), 1 ≤ k.toNat → k.toNat ≤ 25 → v < 26 →
    (∃! i : Fin 26, (shiftedAlphabet k)[i.val].toNat = v) ∧
    (∃! i : Fin 26, (reversedAlphabet (shiftedAlphabet k))[i.val].toNat = v) ∧
    (∃! i : Fin 26, romVf[i.val].toNat = v)) ∧
  (∀ k l : Index, 1 ≤ k.toNat → k.toNat ≤ 25 → 1 ≤ l.toNat → l.toNat ≤ 25 → k ≠ l →
    shiftedAlphabet k ≠ shiftedAlphabet l)

/-- R110, R111: for ANY two tables. The check holds exactly when each is a permutation of 0..25; where it fails the
command ends with TABLE_FAULT before an entry of FWD or BWD is written; where it holds each position of S is sent to that
of T, and back, nothing else changes, and the command goes on. -/
def Obligations.BuildMapsPairsOrFaults : Prop :=
  (∀ a : Table, isPerm a = true ↔ ∀ v, v < 26 → ∃! i : Fin 26, a[i.val].toNat = v) ∧
  (∀ (s : State) (rest : State → State),
    ((isPerm s.sTab && isPerm s.tTab) = false →
      buildMaps rest s = { s with status := statusError, err := 5 }) ∧
    ((isPerm s.sTab && isPerm s.tTab) = true →
      buildMaps rest s = rest (writeMaps s) ∧
      writeMaps s = { s with fwd := (writeMaps s).fwd, bwd := (writeMaps s).bwd } ∧
      ∀ i : Fin 26,
        tableGet (writeMaps s).fwd s.sTab[i.val] = s.tTab[i.val] ∧
        tableGet (writeMaps s).bwd s.tTab[i.val] = s.sTab[i.val]))

/-- R112: from any two permutations, the maps are mutually inverse and each is a permutation itself. -/
def Obligations.MapsAreMutuallyInverse : Prop :=
  ∀ s : State, isPerm s.sTab = true → isPerm s.tTab = true →
    isPerm (writeMaps s).fwd = true ∧ isPerm (writeMaps s).bwd = true ∧
    ∀ a : Index, a.toNat < 26 →
      tableGet (writeMaps s).bwd (tableGet (writeMaps s).fwd a) = a ∧
      tableGet (writeMaps s).fwd (tableGet (writeMaps s).bwd a) = a

/-- R114: the maps of a legal shift in closed form, with VFINV the inverse of ROM_VF, and their fixed points: none for REVERSED, and for VOWEL_FIRST those
the rule lists. -/
def Obligations.MapsInClosedForm : Prop :=
  ∀ k a : Index, 1 ≤ k.toNat → k.toNat ≤ 25 → a.toNat < 26 →
    let s := shiftedAlphabet k
    let r := reversedAlphabet s
    ((tableGet (pairedMap s r) a).toNat : Int) = emod26 (25 + 2 * k.toNat - a.toNat) ∧
    tableGet (pairedMap r s) a = tableGet (pairedMap s r) a ∧
    tableGet (pairedMap s r) a ≠ a ∧
    ((tableGet (pairedMap s romVf) a).toNat : Int) = vowelFirst (emod26 (a.toNat - k.toNat)) ∧
    ((tableGet (pairedMap romVf s) a).toNat : Int) = emod26 (vowelFirstInverse a.toNat + k.toNat) ∧
    vowelFirstInverse (vowelFirst a.toNat) = a.toNat ∧
    (tableGet (pairedMap s romVf) a = a ↔
      (k.toNat, a.toNat) ∈ [(3, 4), (6, 8), (11, 14), (16, 20), (22, 1), (22, 2), (22, 3), (23, 5), (23, 6), (23, 7),
        (24, 9), (24, 10), (24, 11), (24, 12), (24, 13), (25, 15), (25, 16), (25, 17), (25, 18), (25, 19)])

/-- R113: from every latch that a legal command loads the check on S and T passes; no command, in any state, ends with
error code 5; and so no host action brings that code about. -/
def Obligations.TableFaultIsUnreachable : Prop :=
  (∀ (v : Variant) (s : State), v ≠ .none → 1 ≤ s.kLatch.toNat → s.kLatch.toNat ≤ 25 →
    isPerm (buildT v (buildS s)).sTab = true ∧ isPerm (buildT v (buildS s)).tTab = true) ∧
  (∀ (i : Instr) (s : State), ∃ t, exec i s = .next t ∧ t.err ≠ ErrorName.code .tableFault) ∧
  (∀ s : State, s.err ≠ ErrorName.code .tableFault → ∃ t, step s = .next t ∧ t.err ≠ ErrorName.code .tableFault)

/-! ### The commands -/

/-- R131. IS_VALID: its word; ILLEGAL_COMMAND for a LEN above MAXLEN and for every other word with OP = 1; else it
completes, writes RESULT, STATUS, ERR, OUTV and OUTLEN, and no buffer. (POS holds no value after a command, R32.) -/
def Obligations.IsValidAnswersForTheText : Prop :=
  decode 0x0001 = .ok .isValid ∧
  (∀ w : Word, opField w = 1 → w ≠ 0x0001 → ∃ e, decode w = .error e) ∧
  ∀ s : State,
    (¬ MessageFits s → ∃ t, exec .isValid s = .next t ∧ ErrorEntry .illegalCommand s t) ∧
    (MessageFits s → ∃ t, exec .isValid s = .next t ∧
      t = { s with status := statusDone, err := errNone, outv := 0x08, outlen := 0, result := t.result, pos := t.pos } ∧
      (TextValid s → t.result = 1) ∧ (¬ TextValid s → t.result = 0))

/-- R132. ENC_CAESAR: its encoding; its errors in priority order; and, when the message fits, the shift is legal and the
text is valid, that it completes with the stage-1 ciphertext in OUT1[0..LEN-1], every other element of OUT1, every other
buffer and the tables S, T, FWD, BWD unchanged. (K and POS hold no value after a command, R32.) -/
def Obligations.EncCaesarWritesStageOne : Prop :=
  (∀ b : BitVec 8, decode (b ++ (0x02 : BitVec 8)) = .ok (.encCaesar b.toInt)) ∧
  ∀ (k : Int) (s : State),
    (¬ MessageFits s → ∃ t, exec (.encCaesar k) s = .next t ∧ ErrorEntry .illegalCommand s t) ∧
    (MessageFits s → ¬ ShiftLegal k → ∃ t, exec (.encCaesar k) s = .next t ∧ ErrorEntry .shiftOutOfRange s t) ∧
    (MessageFits s → ShiftLegal k → ¬ TextValid s →
      ∃ t, exec (.encCaesar k) s = .next t ∧ ErrorEntry .invalidCharacter s t) ∧
    (MessageFits s → ShiftLegal k → TextValid s → ∃ t, exec (.encCaesar k) s = .next t ∧
      t = { s with
            status := statusDone, err := errNone, outv := 0x01, outlen := s.len, out1 := t.out1,
            kLatch := t.kLatch, pos := t.pos } ∧
      StringStored s.out1 t.out1 s.len fun p => upperChar (fun a => a + k) (inByte s p))

/-- R133. DEC_CAESAR, as `EncCaesarWritesStageOne` says for ENC_CAESAR: the recovered plaintext goes to OUTP. -/
def Obligations.DecCaesarWritesPlaintext : Prop :=
  (∀ b : BitVec 8, decode (b ++ (0x03 : BitVec 8)) = .ok (.decCaesar b.toInt)) ∧
  ∀ (k : Int) (s : State),
    (¬ MessageFits s → ∃ t, exec (.decCaesar k) s = .next t ∧ ErrorEntry .illegalCommand s t) ∧
    (MessageFits s → ¬ ShiftLegal k → ∃ t, exec (.decCaesar k) s = .next t ∧ ErrorEntry .shiftOutOfRange s t) ∧
    (MessageFits s → ShiftLegal k → ¬ TextValid s →
      ∃ t, exec (.decCaesar k) s = .next t ∧ ErrorEntry .invalidCharacter s t) ∧
    (MessageFits s → ShiftLegal k → TextValid s → ∃ t, exec (.decCaesar k) s = .next t ∧
      t = { s with
            status := statusDone, err := errNone, outv := 0x04, outlen := s.len, outp := t.outp,
            kLatch := t.kLatch, pos := t.pos } ∧
      StringStored s.outp t.outp s.len fun p => lowerChar (fun a => a - k) (inByte s p))

/-- R134. ENC_DOUBLE.REV and ENC_DOUBLE.VF: their encodings, and that VAR = 0 or 3 is illegal; their errors in priority order; and, when the message fits,
the shift is legal and the text is valid, that they complete with the stage-1 ciphertext in OUT1 and the stage-2
ciphertext in OUT2, every other element and buffer unchanged. The stage-2 letter `FWD[emod(a + K, 26)]` of a letter `a` is
written in its closed form (R139): `emod(25 + K - a, 26)` for REVERSED, `ROM_VF[a]` for VOWEL_FIRST. (The scratch holds
no value after a command, R32.) -/
def Obligations.EncDoubleWritesBothStages : Prop :=
  (∀ b : BitVec 8,
    decode (b ++ (0x0C : BitVec 8)) = .ok (.encDoubleRev b.toInt) ∧
    decode (b ++ (0x14 : BitVec 8)) = .ok (.encDoubleVf b.toInt)) ∧
  (∀ w : Word, opField w = 4 → varField w = 0 ∨ varField w = 3 → ∃ e, decode w = .error e) ∧
  ∀ (k : Int) (s : State) (i : Instr) (stage2 : Int → Int),
    (i = .encDoubleRev k ∧ stage2 = fun a => 25 + k - a) ∨ (i = .encDoubleVf k ∧ stage2 = vowelFirst) →
    (¬ MessageFits s → ∃ t, exec i s = .next t ∧ ErrorEntry .illegalCommand s t) ∧
    (MessageFits s → ¬ ShiftLegal k → ∃ t, exec i s = .next t ∧ ErrorEntry .shiftOutOfRange s t) ∧
    (MessageFits s → ShiftLegal k → ¬ TextValid s → ∃ t, exec i s = .next t ∧ ErrorEntry .invalidCharacter s t) ∧
    (MessageFits s → ShiftLegal k → TextValid s → ∃ t, exec i s = .next t ∧
      t = { s with
            status := statusDone, err := errNone, outv := 0x03, outlen := s.len, out1 := t.out1, out2 := t.out2,
            kLatch := t.kLatch, sTab := t.sTab, tTab := t.tTab, fwd := t.fwd, bwd := t.bwd, pos := t.pos } ∧
      (StringStored s.out1 t.out1 s.len fun p => upperChar (fun a => a + k) (inByte s p)) ∧
      (StringStored s.out2 t.out2 s.len fun p => upperChar stage2 (inByte s p)))

/-- R135. DEC_DOUBLE.REV and DEC_DOUBLE.VF, as `EncDoubleWritesBothStages` says for ENC_DOUBLE: only the recovered
plaintext is delivered, to OUTP, and the letter `emod(BWD[b] - K, 26)` of a ciphertext letter `b` is written in its closed
form (R139). -/
def Obligations.DecDoubleWritesPlaintext : Prop :=
  (∀ b : BitVec 8,
    decode (b ++ (0x0D : BitVec 8)) = .ok (.decDoubleRev b.toInt) ∧
    decode (b ++ (0x15 : BitVec 8)) = .ok (.decDoubleVf b.toInt)) ∧
  (∀ w : Word, opField w = 5 → varField w = 0 ∨ varField w = 3 → ∃ e, decode w = .error e) ∧
  ∀ (k : Int) (s : State) (i : Instr) (plain : Int → Int),
    (i = .decDoubleRev k ∧ plain = fun a => 25 + k - a) ∨ (i = .decDoubleVf k ∧ plain = vowelFirstInverse) →
    (¬ MessageFits s → ∃ t, exec i s = .next t ∧ ErrorEntry .illegalCommand s t) ∧
    (MessageFits s → ¬ ShiftLegal k → ∃ t, exec i s = .next t ∧ ErrorEntry .shiftOutOfRange s t) ∧
    (MessageFits s → ShiftLegal k → ¬ TextValid s → ∃ t, exec i s = .next t ∧ ErrorEntry .invalidCharacter s t) ∧
    (MessageFits s → ShiftLegal k → TextValid s → ∃ t, exec i s = .next t ∧
      t = { s with
            status := statusDone, err := errNone, outv := 0x04, outlen := s.len, outp := t.outp,
            kLatch := t.kLatch, sTab := t.sTab, tTab := t.tTab, fwd := t.fwd, bwd := t.bwd, pos := t.pos } ∧
      StringStored s.outp t.outp s.len fun p => lowerChar plain (inByte s p))

/-- R136. MAP_TABLE.REV and MAP_TABLE.VF: their encodings, and that VAR = 0 or 3 is illegal; SHIFT_OUT_OF_RANGE as
their one other error, LEN not looked at; and,
when the shift is legal, that they complete with the 26 rows in TBL, reading no message, every other buffer and the maps
FWD and BWD unchanged. (The scratch they do write holds no value after a command, R32.) -/
def Obligations.MapTableWritesTheTriples : Prop :=
  (∀ b : BitVec 8,
    decode (b ++ (0x0E : BitVec 8)) = .ok (.mapTableRev b.toInt) ∧
    decode (b ++ (0x16 : BitVec 8)) = .ok (.mapTableVf b.toInt)) ∧
  (∀ w : Word, opField w = 6 → varField w = 0 ∨ varField w = 3 → ∃ e, decode w = .error e) ∧
  ∀ (k : Int) (s : State) (i : Instr) (stage2 : Int → Int),
    (i = .mapTableRev k ∧ stage2 = fun a => 25 + k - a) ∨ (i = .mapTableVf k ∧ stage2 = vowelFirst) →
    (¬ ShiftLegal k → ∃ t, exec i s = .next t ∧ ErrorEntry .shiftOutOfRange s t) ∧
    (ShiftLegal k → ∃ t, exec i s = .next t ∧
      t = { s with
            status := statusDone, err := errNone, outv := 0x10, outlen := 0, tbl := t.tbl,
            kLatch := t.kLatch, sTab := t.sTab, tTab := t.tTab } ∧
      (∀ r : Nat, r < 26 →
        Memory.read t.tbl (tblIndex r 0) = some (lower (BitVec.ofNat 5 r)) ∧
        Memory.read t.tbl (tblIndex r 1) = some (upper (BitVec.ofInt 5 ((r + k) % 26))) ∧
        Memory.read t.tbl (tblIndex r 2) = some (upper (BitVec.ofInt 5 (stage2 r % 26)))) ∧
      ∀ a, 78 ≤ a → Memory.read t.tbl a = Memory.read s.tbl a)

/-! ### Rules over all commands -/

/-- R130: an issue whose word decodes stores the word in CMD and runs the decoded command; with no host action left a
step changes nothing (that clause, and the fields `pending`, `freeCount` and `reply`, are the model's:
notes/assumptions/1.md, 2.md, 5.md, 8.md). -/
def Obligations.StepRunsTheDecodedCommand : Prop :=
  (∀ (s : State) (w : Word) (rest : List HostAction) (i : Instr),
    s.pending = .issue w :: rest → decode w = .ok i →
    step s = exec i { s with cmd := w, pending := rest, freeCount := s.freeCount + 1, reply := .done }) ∧
  (∀ s : State, s.pending = [] → step s = .next s)

/-- R158: the checks of an issue in their order; the first that fails names the error, and a command none of whose checks
fails completes, so that TABLE_FAULT, the last, never shows. -/
def Obligations.FirstFailingCheckIsReported : Prop :=
  ∀ (s u : State) (w : Word) (rest : List HostAction),
    s.pending = .issue w :: rest →
    u = { s with cmd := w, pending := rest, freeCount := s.freeCount + 1, reply := .done } →
    (∀ e, decode w = .error e → ∃ t, step s = .next t ∧ ErrorEntry .illegalCommand u t) ∧
    (∀ i, decode w = .ok i → readsMessage i = true → ¬ MessageFits u →
      ∃ t, step s = .next t ∧ ErrorEntry .illegalCommand u t) ∧
    (∀ i k, decode w = .ok i → (readsMessage i = true → MessageFits u) → shiftOf i = some k → ¬ ShiftLegal k →
      ∃ t, step s = .next t ∧ ErrorEntry .shiftOutOfRange u t) ∧
    (∀ i k, decode w = .ok i → (readsMessage i = true → MessageFits u) → shiftOf i = some k → ShiftLegal k →
      isCipher i = true → ¬ TextValid u → ∃ t, step s = .next t ∧ ErrorEntry .invalidCharacter u t) ∧
    (∀ i, decode w = .ok i → (readsMessage i = true → MessageFits u) → (∀ k, shiftOf i = some k → ShiftLegal k) →
      (isCipher i = true → TextValid u) →
      ∃ t, step s = .next t ∧ t.status = statusDone ∧ t.err = errNone ∧ t.cmd = w)

/-- R159, R166: a command that ends in an error has changed STATUS, ERR, OUTV and OUTLEN and nothing else: no element of a
buffer, not LEN, not IN, not CMD (and POS is scratch, R32). -/
def Obligations.ErrorsChangeNothingElse : Prop :=
  ∀ (i : Instr) (s : State), ∃ t, exec i s = .next t ∧
    (t.status = statusDone ∧ t.err = errNone ∨
      ∃ e : ErrorName, (e = .illegalCommand ∨ e = .shiftOutOfRange ∨ e = .invalidCharacter) ∧ ErrorEntry e s t)

/-- R138: every word, in every state, ends DONE or ERROR; and where the message bytes hold values, the result registers
and the valid outputs are a function of the word, LEN and the message alone, whatever else the two states hold. -/
def Obligations.CommandsAreTotalAndMemoryless : Prop :=
  (∀ (s : State) (w : Word) (rest : List HostAction), s.pending = .issue w :: rest →
    ∃ t, step s = .next t ∧
      ((t.status = statusDone ∧ t.err = errNone) ∨ (t.status = statusError ∧ t.err ≠ errNone))) ∧
  (∀ (s t : State) (w : Word) (rest rest' : List HostAction),
    s.pending = .issue w :: rest → t.pending = .issue w :: rest' → s.maxLen = t.maxLen → s.len = t.len →
    (∀ p, p < s.len → p < s.maxLen → ∃ c, Memory.read s.inBuf p = some c ∧ Memory.read t.inBuf p = some c) →
    ∃ s' t', step s = .next s' ∧ step t = .next t' ∧ SameResults s' t')

/-- Every step of every state answers a next state: a command ends (R138), and every other host action is taken or
refused without a stop (R30, R43, R71; notes/assumptions/2.md for a step with no host action left). -/
def Obligations.EveryStepAnswersNext : Prop := ∀ s : State, ∃ t, step s = .next t

/-- R7, R28: two states that give a command the same inputs get the same results, whatever tables, latch, outputs, status
or error an earlier command left in them. The bytes of IN that hold no value count among the inputs (R32). -/
def Obligations.ResultsDependOnInputsAlone : Prop :=
  ∀ (i : Instr) (s t : State), SameInputs s t →
    ∃ s' t', exec i s = .next s' ∧ exec i t = .next t' ∧ SameResults s' t'

/-- R160: STATUS, ERR, OUTV and OUTLEN of an earlier command have no effect on the next one at all. -/
def Obligations.EarlierErrorsAreForgotten : Prop :=
  ∀ (i : Instr) (s : State) (st : BitVec 2) (er : BitVec 3) (ov : BitVec 5) (n : Nat),
    exec i { s with status := st, err := er, outv := ov, outlen := n } = exec i s

/-- R46: what a command may write. It never writes CMD, LEN or IN; only the encrypting commands write OUT1, only
ENC_DOUBLE OUT2, only the decrypting commands OUTP, only IS_VALID RESULT, only MAP_TABLE TBL. -/
def Obligations.CommandsWriteOnlyTheirOutputs : Prop :=
  ∀ (i : Instr) (s : State), ∃ t, exec i s = .next t ∧
    t.cmd = s.cmd ∧ t.len = s.len ∧ t.inBuf = s.inBuf ∧ t.maxLen = s.maxLen ∧
    t.pending = s.pending ∧ t.freeCount = s.freeCount ∧ t.reply = s.reply ∧
    (t.out1 = s.out1 ∨ ∃ v k, i = encryptWith v k) ∧
    (t.out2 = s.out2 ∨ ∃ v k, v ≠ Variant.none ∧ i = encryptWith v k) ∧
    (t.outp = s.outp ∨ ∃ v k, i = decryptWith v k) ∧
    (t.result = s.result ∨ i = .isValid) ∧
    (t.tbl = s.tbl ∨ ∃ k, i = .mapTableRev k ∨ i = .mapTableVf k)

/-- R84: two messages that differ in the case of letters only give the same results in every command. -/
def Obligations.CaseOfInputIsIgnored : Prop :=
  ∀ (i : Instr) (s t : State), s.maxLen = t.maxLen → s.len = t.len →
    (∀ p, p < s.len → inByte s p = inByte t p ∨
      (isLetter (inByte s p) = true ∧ isLetter (inByte t p) = true ∧ idx (inByte s p) = idx (inByte t p))) →
    ∃ s' t', exec i s = .next s' ∧ exec i t = .next t' ∧ SameResults s' t'

/-- R123: after any command the outputs that hold a value hold it in the case that the rule fixes: OUT1 and OUT2 upper,
OUTP lower, the plain column of TBL lower and its stage columns upper; and a string output holds a space exactly where the
message does. -/
def Obligations.OutputCaseIsFixed : Prop :=
  ∀ (i : Instr) (s : State), ∃ t, exec i s = .next t ∧ OutputsHoldResults t ∧
    ∀ (mask : BitVec 5) (m : Memory),
      (mask, m) ∈ [(outvV1, t.out1), (outvV2, t.out2), (outvVP, t.outp)] → t.outputValid mask = true →
      ∀ p, p < t.outlen → (Memory.read m p = some 0x20 ↔ inByte s p = 0x20)

/-- R124: a string output has the length of the message, a space exactly where the message has one, and a letter at
every other position. -/
def Obligations.LengthAndSpacesArePreserved : Prop :=
  ∀ (i : Instr) (k : Int) (s : State),
    isCipher i = true → shiftOf i = some k → MessageFits s → ShiftLegal k → TextValid s →
    ∃ t, exec i s = .next t ∧ t.outlen = s.len ∧
      ∀ (mask : BitVec 5) (m : Memory),
        (mask, m) ∈ [(outvV1, t.out1), (outvV2, t.out2), (outvVP, t.outp)] → t.outputValid mask = true →
        ∀ p, p < s.len → ∃ c, Memory.read m p = some c ∧ (c = 0x20 ↔ inByte s p = 0x20) ∧ (c ≠ 0x20 → isLetter c = true)

/-- R120: the output character at a position depends on the input character there and on the command alone: not on the
position, not on the other characters, not on the rest of the state. -/
def Obligations.SubstitutionIsMonoalphabetic : Prop :=
  ∀ (i : Instr) (k : Int) (s t : State) (p q : Nat),
    isCipher i = true → shiftOf i = some k → ShiftLegal k →
    MessageFits s → TextValid s → MessageFits t → TextValid t →
    p < s.len → q < t.len → inByte s p = inByte t q →
    ∃ s' t', exec i s = .next s' ∧ exec i t = .next t' ∧ s'.outv = t'.outv ∧
      (s'.outputValid outvV1 = true → Memory.read s'.out1 p = Memory.read t'.out1 q) ∧
      (s'.outputValid outvV2 = true → Memory.read s'.out2 p = Memory.read t'.out2 q) ∧
      (s'.outputValid outvVP = true → Memory.read s'.outp p = Memory.read t'.outp q)

/-- R137: the round trip, for the plain Caesar cipher and both double ciphers, every legal shift and every valid message
of length 0 to MAXLEN: encrypting completes, and in any state whose message is that ciphertext, decrypting with the same
shift and variant completes with the lower-case message in OUTP and its length in OUTLEN. -/
def Obligations.DecryptionInvertsEncryption : Prop :=
  ∀ (v : Variant) (k : Int) (s : State), MessageFits s → ShiftLegal k → TextValid s →
    ∃ s', exec (encryptWith v k) s = .next s' ∧ s'.status = statusDone ∧ s'.outlen = s.len ∧
      ∀ t : State, MessageFits t → t.len = s'.outlen →
        (∀ p, p < t.len → Memory.read (cipherText v s') p = some (inByte t p)) →
        ∃ t', exec (decryptWith v k) t = .next t' ∧ t'.status = statusDone ∧ t'.err = errNone ∧
          t'.outputValid outvVP = true ∧ t'.outlen = s.len ∧
          ∀ p, p < s.len → Memory.read t'.outp p = some (lowerChar (fun a => a) (inByte s p))

/-- R135, R139: the vowel-first cipher decrypts under every legal shift, whichever shift encrypted. -/
def Obligations.VowelFirstDecryptsUnderAnyShift : Prop :=
  ∀ (k l : Int) (s : State), MessageFits s → ShiftLegal k → ShiftLegal l → TextValid s →
    ∃ s', exec (.encDoubleVf k) s = .next s' ∧ s'.outlen = s.len ∧
      ∀ t : State, MessageFits t → t.len = s'.outlen →
        (∀ p, p < t.len → Memory.read s'.out2 p = some (inByte t p)) →
        ∃ t', exec (.decDoubleVf l) t = .next t' ∧ t'.outputValid outvVP = true ∧
          ∀ p, p < s.len → Memory.read t'.outp p = some (lowerChar (fun a => a) (inByte s p))

/-- R139: the reversed double cipher is its own inverse up to case: encrypting twice gives the message in upper case. -/
def Obligations.ReversedCipherIsAnInvolution : Prop :=
  ∀ (k : Int) (s : State), MessageFits s → ShiftLegal k → TextValid s →
    ∃ s', exec (.encDoubleRev k) s = .next s' ∧ s'.outlen = s.len ∧
      ∀ t : State, MessageFits t → t.len = s'.outlen →
        (∀ p, p < t.len → Memory.read s'.out2 p = some (inByte t p)) →
        ∃ t', exec (.encDoubleRev k) t = .next t' ∧ t'.outputValid outvV2 = true ∧
          ∀ p, p < s.len → Memory.read t'.out2 p = some (upperChar (fun a => a) (inByte s p))

/-! ### The host's other actions -/

/-- R30, R43, R71: `WR IN[p], v` stores one element and nothing else; an index at or above MAXLEN is refused and no state
of the engine changes. -/
def Obligations.HostWritesOneMessageElement : Prop :=
  ∀ (s : State) (p : Nat) (v : Byte) (rest : List HostAction), s.pending = .writeIn p v :: rest →
    (p < s.maxLen → ∃ t, step s = .next t ∧
      t = { s with inBuf := t.inBuf, pending := rest, freeCount := s.freeCount + 1, reply := .done } ∧
      Memory.read t.inBuf p = some v ∧ ∀ q, q ≠ p → Memory.read t.inBuf q = Memory.read s.inBuf q) ∧
    (s.maxLen ≤ p →
      step s = .next { s with pending := rest, freeCount := s.freeCount + 1, reply := .refused })

/-- R14, R71: `WR LEN, n` stores every number that LEN_W bits hold as written, one above MAXLEN too, and nothing else.
(A larger number cannot be moved in LEN_W bits; that the model keeps its low LEN_W bits is notes/assumptions/4.md.) -/
def Obligations.HostWritesTheLength : Prop :=
  ∀ (s : State) (n : Nat) (rest : List HostAction),
    s.pending = .writeLen n :: rest → n < 2 ^ lenWidth s.maxLen →
    step s = .next { s with len := n, pending := rest, freeCount := s.freeCount + 1, reply := .done }

/-- R5: LEN_W is the least width whose numbers reach MAXLEN. -/
def Obligations.LengthWidthIsLeast : Prop :=
  ∀ n : Nat, 1 ≤ n → n < 2 ^ lenWidth n ∧ ∀ w, n < 2 ^ w → lenWidth n ≤ w

/-- R44, R71: a read, of any item, changes no state of the engine, and returns the value of an item that holds one. (The
answer register `reply` is the model's, notes/assumptions/8.md.) -/
def Obligations.HostReadsReturnTheValueAndChangeNothing : Prop :=
  ∀ (s : State) (item : HostItem) (rest : List HostAction), s.pending = .read item :: rest →
    ∃ t, step s = .next t ∧
      t = { s with pending := rest, freeCount := s.freeCount + 1, reply := t.reply } ∧
      (item = .cmd → t.reply = .value s.cmd.toNat) ∧
      (item = .len → t.reply = .value s.len) ∧
      (∀ p c, item = .inp p → p < s.maxLen → Memory.read s.inBuf p = some c → t.reply = .value c.toNat) ∧
      (item = .res .status → t.reply = .value s.status.toNat) ∧
      (item = .res .err → t.reply = .value s.err.toNat) ∧
      (item = .res .outv → t.reply = .value s.outv.toNat) ∧
      (item = .res .outlen → t.reply = .value s.outlen) ∧
      (item = .res .result → s.outputValid outvVR = true → t.reply = .value s.result.toNat) ∧
      (∀ p c, item = .res (.out1 p) → p < s.maxLen → s.outputValid outvV1 = true → p < s.outlen →
        Memory.read s.out1 p = some c → t.reply = .value c.toNat) ∧
      (∀ p c, item = .res (.out2 p) → p < s.maxLen → s.outputValid outvV2 = true → p < s.outlen →
        Memory.read s.out2 p = some c → t.reply = .value c.toNat) ∧
      (∀ p c, item = .res (.outp p) → p < s.maxLen → s.outputValid outvVP = true → p < s.outlen →
        Memory.read s.outp p = some c → t.reply = .value c.toNat) ∧
      (∀ i j c, item = .res (.tbl i j) → i < 26 → j < 3 → s.outputValid outvVT = true →
        Memory.read s.tbl (tblIndex i j) = some c → t.reply = .value c.toNat)

/-- R30, R43: a write to a result item is ignored, and an access to an index outside a buffer, read or write, is refused;
no state of the engine changes. That the refusal is an answer of the interface, and no stop, is the model's
(notes/assumptions/8.md, 11.md, 12.md); what an ignored write to an item that exists is answered is left open. -/
def Obligations.ResultItemsAreReadOnly : Prop :=
  (∀ (s : State) (r : ResultItem) (v : Nat) (rest : List HostAction), s.pending = .writeResult r v :: rest →
    ∃ t, step s = .next t ∧
      t = { s with pending := rest, freeCount := s.freeCount + 1, reply := t.reply } ∧
      (∀ p, s.maxLen ≤ p → (r = .out1 p ∨ r = .out2 p ∨ r = .outp p) → t.reply = .refused) ∧
      (∀ i j, 26 ≤ i ∨ 3 ≤ j → r = .tbl i j → t.reply = .refused)) ∧
  (∀ (s : State) (item : HostItem) (rest : List HostAction), s.pending = .read item :: rest →
    (∀ p, s.maxLen ≤ p →
      (item = .inp p ∨ item = .res (.out1 p) ∨ item = .res (.out2 p) ∨ item = .res (.outp p)) →
      step s = .next { s with pending := rest, freeCount := s.freeCount + 1, reply := .refused }) ∧
    (∀ i j, 26 ≤ i ∨ 3 ≤ j → item = .res (.tbl i j) →
      step s = .next { s with pending := rest, freeCount := s.freeCount + 1, reply := .refused }))

/-- R49: once written, the results of a command stay until the next issue or reset: no other host action changes STATUS,
ERR, OUTV, OUTLEN, RESULT or an output buffer. -/
def Obligations.ResultsStayUntilTheNextIssue : Prop :=
  ∀ (s : State) (a : HostAction) (rest : List HostAction),
    s.pending = a :: rest → (∀ w, a ≠ .issue w) → a ≠ .reset →
    ∃ t, step s = .next t ∧ t.cmd = s.cmd ∧
      t.status = s.status ∧ t.err = s.err ∧ t.outv = s.outv ∧ t.outlen = s.outlen ∧ t.result = s.result ∧
      t.out1 = s.out1 ∧ t.out2 = s.out2 ∧ t.outp = s.outp ∧ t.tbl = s.tbl

/-! ### The host's pseudo-instructions -/

/-- R70: LOADSTR is its writes in order, and running them from any state leaves the text in IN from element 0, its length
in LEN, every other element of IN and all else of the engine as before. -/
def Obligations.LoadStrStoresTheText : Prop :=
  ∀ str : List Byte,
    loadStr str = (List.range str.length).map (fun p => .writeIn p (str.getD p 0)) ++ [.writeLen str.length] ∧
    ∀ (s : State) (rest : List HostAction), str.length ≤ s.maxLen → s.pending = loadStr str ++ rest →
      ∃ t, Sys2Proof.core.run (str.length + 1) s = .next t ∧
        t = { s with
              inBuf := t.inBuf, len := str.length, pending := rest, freeCount := s.freeCount + str.length + 1,
              reply := .done } ∧
        StringStored s.inBuf t.inBuf str.length fun p => str.getD p 0

/-- R70: COPYBACK of OUT1, OUT2 or OUTP, whether it holds a value or not, with no OUTLEN above MAXLEN (an invariant,
`StepKeepsResultCodesLegal`). It first reads OUTLEN; at each position below it, the element is read, the answer is a byte,
and the next action writes that byte to IN there; at the end LEN is OUTLEN and nothing else of the engine has changed.
(That the values stand in the actions beforehand is notes/assumptions/19.md.) -/
def Obligations.CopyBackMovesAnOutputIntoTheMessage : Prop :=
  ∀ (item : Nat → ResultItem) (s : State) (rest : List HostAction),
    item ∈ [ResultItem.out1, ResultItem.out2, ResultItem.outp] → s.outlen ≤ s.maxLen →
    s.pending = copyBack item s ++ rest →
    s.pending.head? = some (.read (.res .outlen)) ∧
    (∃ u, step s = .next u ∧ u.reply = .value s.outlen) ∧
    ∃ t, Sys2Proof.core.run (2 * s.outlen + 2) s = .next t ∧
      t = { s with
            inBuf := t.inBuf, len := s.outlen, pending := rest, freeCount := s.freeCount + 2 * s.outlen + 2,
            reply := .done } ∧
      (∀ p, p < s.outlen → ∃ v u c,
        Sys2Proof.core.run (2 * p + 1) s = .next v ∧ v.pending.head? = some (.read (.res (item p))) ∧
        step v = .next u ∧ u.pending.head? = some (.writeIn p c) ∧ u.reply = .value c.toNat ∧
        Memory.read t.inBuf p = some c) ∧
      ∀ p, s.outlen ≤ p → Memory.read t.inBuf p = Memory.read s.inBuf p

/-! ### Reset -/

/-- R31: the state right after reset, in every register and buffer for which the rule gives a value or says that it holds
none, and the constants ROM_ALPHA and ROM_VF. -/
def Obligations.ResetStateIsAsListed : Prop :=
  State.reset.cmd = 0x0000 ∧ State.reset.len = 0 ∧ State.reset.status = statusIdle ∧ State.reset.err = errNone ∧
  State.reset.outv = 0 ∧ State.reset.outlen = 0 ∧
  (∀ p, Memory.read State.reset.inBuf p = none ∧ Memory.read State.reset.out1 p = none ∧
    Memory.read State.reset.out2 p = none ∧ Memory.read State.reset.outp p = none ∧
    Memory.read State.reset.tbl p = none) ∧
  (∀ i : Fin 26, (lower (BitVec.ofNat 5 i.val)).toNat = 0x61 + i.val) ∧
  (∀ i : Fin 26, (romVf[i.val].toNat : Int) = vowelFirst i.val)

/-- R170, R171: RESET leaves what `State.reset` holds, whatever ran before, and issues nothing; MAXLEN, the rest of the
host's program, the count of its actions and the interface's answer are no state of the engine. -/
def Obligations.ResetActionRestoresTheResetState : Prop :=
  ∀ (s : State) (rest : List HostAction), s.pending = .reset :: rest →
    step s = .next
      { State.reset with maxLen := s.maxLen, pending := rest, freeCount := s.freeCount + 1, reply := .done }

/-- R31, R40, R68, R150: the invariants hold at reset. The clauses on K, S, T, FWD and BWD rest on the zeros that the
model chose for them, since R31 gives them no value (notes/assumptions/9.md). -/
def Obligations.ResetStateMeetsTheInvariants : Prop := State.reset.Inv

/-! ### Invariants that every step keeps -/

/-- R14, R40: every step keeps the buffers in canonical form and in range, and LEN within its width. -/
def Obligations.StepKeepsBuffersInForm : Prop :=
  ∀ s t : State, BuffersInForm s → step s = .next t → BuffersInForm t

/-- R16, R17, R18, R150: every step keeps the result registers at values the engine writes. -/
def Obligations.StepKeepsResultCodesLegal : Prop :=
  ∀ s t : State, ResultCodesLegal s → step s = .next t → ResultCodesLegal t

/-- R18, R20, R22: every step keeps every output whose OUTV bit is 1 filled with a result. -/
def Obligations.StepKeepsOutputsFilled : Prop :=
  ∀ s t : State, OutputsHoldResults s → step s = .next t → OutputsHoldResults t

/-- R68: every step keeps the values 26 to 31 out of K, S, T, FWD and BWD. -/
def Obligations.StepKeepsScratchIndicesLegal : Prop :=
  ∀ s t : State, ScratchIndicesLegal s → step s = .next t → ScratchIndicesLegal t
end

