-- ==== Sys2Proof/Laws/Message.lean ====
section
/-! SUPPORT. What the message operand, the validity predicate and the string operations are, position by position. -/

namespace Sys2Proof.Machine

@[simp] theorem readMessage_length (s : State) : (readMessage s).length = s.len := by
  simp [readMessage]

@[simp] theorem readMessage_getElem (s : State) (p : Nat) (h : p < (readMessage s).length) :
    (readMessage s)[p] = inByte s p := by
  simp [readMessage]

/-- Two states with the same IN and the same count of host actions show a command the same bytes. -/
theorem inByte_congr {s t : State} (hb : s.inBuf = t.inBuf) (hc : s.freeCount = t.freeCount) (p : Nat) :
    inByte s p = inByte t p := by
  simp [inByte, hb, hc]

/-- Every update of the state that leaves IN, LEN and the count of host actions alone leaves the message alone. -/
theorem readMessage_of_fields {s t : State} (hl : s.len = t.len) (hb : s.inBuf = t.inBuf)
    (hc : s.freeCount = t.freeCount) : readMessage s = readMessage t := by
  simp only [readMessage, hl]
  exact List.map_congr_left fun p _ => inByte_congr hb hc p

@[simp] theorem readMessage_clearOutputs (s : State) : readMessage (clearOutputs s) = readMessage s := rfl
@[simp] theorem readMessage_latchShift (k : Int) (s : State) : readMessage (latchShift k s) = readMessage s := rfl
@[simp] theorem readMessage_buildS (s : State) : readMessage (buildS s) = readMessage s := rfl
@[simp] theorem readMessage_buildT (var : Variant) (s : State) : readMessage (buildT var s) = readMessage s := by
  cases var <;> rfl
@[simp] theorem readMessage_writeMaps (s : State) : readMessage (writeMaps s) = readMessage s := rfl

theorem readMessage_congr {s t : State} (hl : s.len = t.len) (h : ∀ p, p < s.len → inByte s p = inByte t p) :
    readMessage s = readMessage t := by
  apply List.ext_getElem
  · simp [hl]
  · intro p h1 h2
    simpa using h p (by simpa using h1)

/-- The predicate of R81, as a statement about positions. -/
theorem isValidText_readMessage (s : State) : isValidText (readMessage s) = true ↔ TextValid s := by
  simp only [isValidText, readMessage, List.all_map, List.all_eq_true, List.mem_range, Function.comp, TextValid]

theorem shiftInRange_iff (k : Int) : shiftInRange k = true ↔ ShiftLegal k := by
  simp [shiftInRange, ShiftLegal]

@[simp] theorem encryptStage1_length (str : List Byte) (k : Index) : (encryptStage1 str k).length = str.length := by
  simp [encryptStage1]

@[simp] theorem decryptStage1_length (str : List Byte) (k : Index) : (decryptStage1 str k).length = str.length := by
  simp [decryptStage1]

@[simp] theorem substitute_length (map : Table) (str : List Byte) : (substitute map str).length = str.length := by
  simp [substitute]

@[simp] theorem applyForward_length (map : Table) (str : List Byte) : (applyForward map str).length = str.length :=
  substitute_length map str

@[simp] theorem applyBackward_length (map : Table) (str : List Byte) : (applyBackward map str).length = str.length :=
  substitute_length map str

@[simp] theorem tableCodes_length (s t : Table) : (tableCodes s t).length = 78 := by
  simp [tableCodes]

/-- A legal shift, latched in K, is the shift. -/
theorem latched_toNat (k : Int) (h : ShiftLegal k) : ((BitVec.ofInt 5 k).toNat : Int) = k := by
  obtain ⟨h1, h2⟩ := h
  rw [BitVec.toNat_ofInt]
  omega

theorem isSpace_iff (c : Byte) : isSpace c = true ↔ c = 0x20 := by simp [isSpace, spaceCode]

/-- A letter rendered in upper case is no space, and its index is itself (R67). -/
theorem idx_upper : ∀ i : Index, idx (upper i) = i ∧ isSpace (upper i) = false := by decide +kernel

/-- The index of an accepted code that is no space is 0 to 25 (R67, R80). -/
theorem idx_lt_of_accepted : ∀ c : Byte, accepted c = true → isSpace c = false → (idx c).toNat < 26 := by
  decide +kernel

/-- The index shifts give letter indices (R96). -/
theorem shift_lt : ∀ a k : Index, (shiftForward a k).toNat < 26 ∧ (shiftBackward a k).toNat < 26 := by decide +kernel

/-- `shift_forward` on a latched legal shift, on integers (R91). -/
theorem shiftForward_latched (a : Index) (k : Int) (hk : ShiftLegal k) :
    shiftForward a (BitVec.ofInt 5 k) = BitVec.ofInt 5 ((a.toNat + k) % 26) := by
  unfold shiftForward emod26
  rw [latched_toNat k hk]
  rfl

/-- `shift_backward` on a latched legal shift, on integers (R92). -/
theorem shiftBackward_latched (a : Index) (k : Int) (hk : ShiftLegal k) :
    shiftBackward a (BitVec.ofInt 5 k) = BitVec.ofInt 5 ((a.toNat - k) % 26) := by
  unfold shiftBackward emod26
  rw [latched_toNat k hk]
  rfl

/-- Stage-1 encryption, one character, on integers (R93). -/
theorem encryptStage1_getElem (str : List Byte) (k : Int) (hk : ShiftLegal k) (p : Nat) (h : p < str.length) :
    (encryptStage1 str (BitVec.ofInt 5 k))[p]'(by simpa using h) = upperChar (fun a => a + k) str[p] := by
  simp only [encryptStage1, List.getElem_map, upperChar, isSpace_iff, shiftForward_latched _ k hk, spaceCode]

/-- Stage-1 decryption, one character, on integers (R94). -/
theorem decryptStage1_getElem (str : List Byte) (k : Int) (hk : ShiftLegal k) (p : Nat) (h : p < str.length) :
    (decryptStage1 str (BitVec.ofInt 5 k))[p]'(by simpa using h) = lowerChar (fun a => a - k) str[p] := by
  simp only [decryptStage1, List.getElem_map, lowerChar, isSpace_iff, shiftBackward_latched _ k hk, spaceCode]

end Sys2Proof.Machine
end

