-- ==== Sys2Proof/Laws/State.lean ====
section
/-! SUPPORT. One lemma per field per update of the state, so that no proof unfolds a record update. -/

namespace Sys2Proof.Machine

/-! clearOutputs -/

@[simp] theorem clearOutputs_maxLen (s : State) : (clearOutputs s).maxLen = s.maxLen := rfl
@[simp] theorem clearOutputs_cmd (s : State) : (clearOutputs s).cmd = s.cmd := rfl
@[simp] theorem clearOutputs_len (s : State) : (clearOutputs s).len = s.len := rfl
@[simp] theorem clearOutputs_inBuf (s : State) : (clearOutputs s).inBuf = s.inBuf := rfl
@[simp] theorem clearOutputs_status (s : State) : (clearOutputs s).status = s.status := rfl
@[simp] theorem clearOutputs_err (s : State) : (clearOutputs s).err = s.err := rfl
@[simp] theorem clearOutputs_outv (s : State) : (clearOutputs s).outv = 0 := rfl
@[simp] theorem clearOutputs_outlen (s : State) : (clearOutputs s).outlen = 0 := rfl
@[simp] theorem clearOutputs_result (s : State) : (clearOutputs s).result = s.result := rfl
@[simp] theorem clearOutputs_out1 (s : State) : (clearOutputs s).out1 = s.out1 := rfl
@[simp] theorem clearOutputs_out2 (s : State) : (clearOutputs s).out2 = s.out2 := rfl
@[simp] theorem clearOutputs_outp (s : State) : (clearOutputs s).outp = s.outp := rfl
@[simp] theorem clearOutputs_tbl (s : State) : (clearOutputs s).tbl = s.tbl := rfl
@[simp] theorem clearOutputs_kLatch (s : State) : (clearOutputs s).kLatch = s.kLatch := rfl
@[simp] theorem clearOutputs_sTab (s : State) : (clearOutputs s).sTab = s.sTab := rfl
@[simp] theorem clearOutputs_tTab (s : State) : (clearOutputs s).tTab = s.tTab := rfl
@[simp] theorem clearOutputs_fwd (s : State) : (clearOutputs s).fwd = s.fwd := rfl
@[simp] theorem clearOutputs_bwd (s : State) : (clearOutputs s).bwd = s.bwd := rfl
@[simp] theorem clearOutputs_pos (s : State) : (clearOutputs s).pos = s.pos := rfl
@[simp] theorem clearOutputs_pending (s : State) : (clearOutputs s).pending = s.pending := rfl
@[simp] theorem clearOutputs_freeCount (s : State) : (clearOutputs s).freeCount = s.freeCount := rfl
@[simp] theorem clearOutputs_reply (s : State) : (clearOutputs s).reply = s.reply := rfl

/-! complete -/

@[simp] theorem complete_maxLen (mask : BitVec 5) (n : Nat) (s : State) : (complete mask n s).maxLen = s.maxLen := rfl
@[simp] theorem complete_cmd (mask : BitVec 5) (n : Nat) (s : State) : (complete mask n s).cmd = s.cmd := rfl
@[simp] theorem complete_len (mask : BitVec 5) (n : Nat) (s : State) : (complete mask n s).len = s.len := rfl
@[simp] theorem complete_inBuf (mask : BitVec 5) (n : Nat) (s : State) : (complete mask n s).inBuf = s.inBuf := rfl
@[simp] theorem complete_status (mask : BitVec 5) (n : Nat) (s : State) : (complete mask n s).status = statusDone := rfl
@[simp] theorem complete_err (mask : BitVec 5) (n : Nat) (s : State) : (complete mask n s).err = errNone := rfl
@[simp] theorem complete_outv (mask : BitVec 5) (n : Nat) (s : State) : (complete mask n s).outv = mask := rfl
@[simp] theorem complete_outlen (mask : BitVec 5) (n : Nat) (s : State) : (complete mask n s).outlen = n := rfl
@[simp] theorem complete_result (mask : BitVec 5) (n : Nat) (s : State) : (complete mask n s).result = s.result := rfl
@[simp] theorem complete_out1 (mask : BitVec 5) (n : Nat) (s : State) : (complete mask n s).out1 = s.out1 := rfl
@[simp] theorem complete_out2 (mask : BitVec 5) (n : Nat) (s : State) : (complete mask n s).out2 = s.out2 := rfl
@[simp] theorem complete_outp (mask : BitVec 5) (n : Nat) (s : State) : (complete mask n s).outp = s.outp := rfl
@[simp] theorem complete_tbl (mask : BitVec 5) (n : Nat) (s : State) : (complete mask n s).tbl = s.tbl := rfl
@[simp] theorem complete_kLatch (mask : BitVec 5) (n : Nat) (s : State) : (complete mask n s).kLatch = s.kLatch := rfl
@[simp] theorem complete_sTab (mask : BitVec 5) (n : Nat) (s : State) : (complete mask n s).sTab = s.sTab := rfl
@[simp] theorem complete_tTab (mask : BitVec 5) (n : Nat) (s : State) : (complete mask n s).tTab = s.tTab := rfl
@[simp] theorem complete_fwd (mask : BitVec 5) (n : Nat) (s : State) : (complete mask n s).fwd = s.fwd := rfl
@[simp] theorem complete_bwd (mask : BitVec 5) (n : Nat) (s : State) : (complete mask n s).bwd = s.bwd := rfl
@[simp] theorem complete_pos (mask : BitVec 5) (n : Nat) (s : State) : (complete mask n s).pos = s.pos := rfl
@[simp] theorem complete_pending (mask : BitVec 5) (n : Nat) (s : State) : (complete mask n s).pending = s.pending := rfl
@[simp] theorem complete_freeCount (mask : BitVec 5) (n : Nat) (s : State) : (complete mask n s).freeCount = s.freeCount := rfl
@[simp] theorem complete_reply (mask : BitVec 5) (n : Nat) (s : State) : (complete mask n s).reply = s.reply := rfl

/-! raise -/

@[simp] theorem raise_maxLen (e : ErrorName) (s : State) : (raise e s).maxLen = s.maxLen := rfl
@[simp] theorem raise_cmd (e : ErrorName) (s : State) : (raise e s).cmd = s.cmd := rfl
@[simp] theorem raise_len (e : ErrorName) (s : State) : (raise e s).len = s.len := rfl
@[simp] theorem raise_inBuf (e : ErrorName) (s : State) : (raise e s).inBuf = s.inBuf := rfl
@[simp] theorem raise_status (e : ErrorName) (s : State) : (raise e s).status = statusError := rfl
@[simp] theorem raise_err (e : ErrorName) (s : State) : (raise e s).err = e.code := rfl
@[simp] theorem raise_outv (e : ErrorName) (s : State) : (raise e s).outv = s.outv := rfl
@[simp] theorem raise_outlen (e : ErrorName) (s : State) : (raise e s).outlen = s.outlen := rfl
@[simp] theorem raise_result (e : ErrorName) (s : State) : (raise e s).result = s.result := rfl
@[simp] theorem raise_out1 (e : ErrorName) (s : State) : (raise e s).out1 = s.out1 := rfl
@[simp] theorem raise_out2 (e : ErrorName) (s : State) : (raise e s).out2 = s.out2 := rfl
@[simp] theorem raise_outp (e : ErrorName) (s : State) : (raise e s).outp = s.outp := rfl
@[simp] theorem raise_tbl (e : ErrorName) (s : State) : (raise e s).tbl = s.tbl := rfl
@[simp] theorem raise_kLatch (e : ErrorName) (s : State) : (raise e s).kLatch = s.kLatch := rfl
@[simp] theorem raise_sTab (e : ErrorName) (s : State) : (raise e s).sTab = s.sTab := rfl
@[simp] theorem raise_tTab (e : ErrorName) (s : State) : (raise e s).tTab = s.tTab := rfl
@[simp] theorem raise_fwd (e : ErrorName) (s : State) : (raise e s).fwd = s.fwd := rfl
@[simp] theorem raise_bwd (e : ErrorName) (s : State) : (raise e s).bwd = s.bwd := rfl
@[simp] theorem raise_pos (e : ErrorName) (s : State) : (raise e s).pos = s.pos := rfl
@[simp] theorem raise_pending (e : ErrorName) (s : State) : (raise e s).pending = s.pending := rfl
@[simp] theorem raise_freeCount (e : ErrorName) (s : State) : (raise e s).freeCount = s.freeCount := rfl
@[simp] theorem raise_reply (e : ErrorName) (s : State) : (raise e s).reply = s.reply := rfl

/-! latchShift -/

@[simp] theorem latchShift_maxLen (k : Int) (s : State) : (latchShift k s).maxLen = s.maxLen := rfl
@[simp] theorem latchShift_cmd (k : Int) (s : State) : (latchShift k s).cmd = s.cmd := rfl
@[simp] theorem latchShift_len (k : Int) (s : State) : (latchShift k s).len = s.len := rfl
@[simp] theorem latchShift_inBuf (k : Int) (s : State) : (latchShift k s).inBuf = s.inBuf := rfl
@[simp] theorem latchShift_status (k : Int) (s : State) : (latchShift k s).status = s.status := rfl
@[simp] theorem latchShift_err (k : Int) (s : State) : (latchShift k s).err = s.err := rfl
@[simp] theorem latchShift_outv (k : Int) (s : State) : (latchShift k s).outv = s.outv := rfl
@[simp] theorem latchShift_outlen (k : Int) (s : State) : (latchShift k s).outlen = s.outlen := rfl
@[simp] theorem latchShift_result (k : Int) (s : State) : (latchShift k s).result = s.result := rfl
@[simp] theorem latchShift_out1 (k : Int) (s : State) : (latchShift k s).out1 = s.out1 := rfl
@[simp] theorem latchShift_out2 (k : Int) (s : State) : (latchShift k s).out2 = s.out2 := rfl
@[simp] theorem latchShift_outp (k : Int) (s : State) : (latchShift k s).outp = s.outp := rfl
@[simp] theorem latchShift_tbl (k : Int) (s : State) : (latchShift k s).tbl = s.tbl := rfl
@[simp] theorem latchShift_kLatch (k : Int) (s : State) : (latchShift k s).kLatch = BitVec.ofInt 5 k := rfl
@[simp] theorem latchShift_sTab (k : Int) (s : State) : (latchShift k s).sTab = s.sTab := rfl
@[simp] theorem latchShift_tTab (k : Int) (s : State) : (latchShift k s).tTab = s.tTab := rfl
@[simp] theorem latchShift_fwd (k : Int) (s : State) : (latchShift k s).fwd = s.fwd := rfl
@[simp] theorem latchShift_bwd (k : Int) (s : State) : (latchShift k s).bwd = s.bwd := rfl
@[simp] theorem latchShift_pos (k : Int) (s : State) : (latchShift k s).pos = s.pos := rfl
@[simp] theorem latchShift_pending (k : Int) (s : State) : (latchShift k s).pending = s.pending := rfl
@[simp] theorem latchShift_freeCount (k : Int) (s : State) : (latchShift k s).freeCount = s.freeCount := rfl
@[simp] theorem latchShift_reply (k : Int) (s : State) : (latchShift k s).reply = s.reply := rfl

/-! storeOut1 -/

@[simp] theorem storeOut1_maxLen (str : List Byte) (s : State) : (storeOut1 str s).maxLen = s.maxLen := rfl
@[simp] theorem storeOut1_cmd (str : List Byte) (s : State) : (storeOut1 str s).cmd = s.cmd := rfl
@[simp] theorem storeOut1_len (str : List Byte) (s : State) : (storeOut1 str s).len = s.len := rfl
@[simp] theorem storeOut1_inBuf (str : List Byte) (s : State) : (storeOut1 str s).inBuf = s.inBuf := rfl
@[simp] theorem storeOut1_status (str : List Byte) (s : State) : (storeOut1 str s).status = s.status := rfl
@[simp] theorem storeOut1_err (str : List Byte) (s : State) : (storeOut1 str s).err = s.err := rfl
@[simp] theorem storeOut1_outv (str : List Byte) (s : State) : (storeOut1 str s).outv = s.outv := rfl
@[simp] theorem storeOut1_outlen (str : List Byte) (s : State) : (storeOut1 str s).outlen = s.outlen := rfl
@[simp] theorem storeOut1_result (str : List Byte) (s : State) : (storeOut1 str s).result = s.result := rfl
@[simp] theorem storeOut1_out1 (str : List Byte) (s : State) : (storeOut1 str s).out1 = Memory.writeString s.out1 0 str := rfl
@[simp] theorem storeOut1_out2 (str : List Byte) (s : State) : (storeOut1 str s).out2 = s.out2 := rfl
@[simp] theorem storeOut1_outp (str : List Byte) (s : State) : (storeOut1 str s).outp = s.outp := rfl
@[simp] theorem storeOut1_tbl (str : List Byte) (s : State) : (storeOut1 str s).tbl = s.tbl := rfl
@[simp] theorem storeOut1_kLatch (str : List Byte) (s : State) : (storeOut1 str s).kLatch = s.kLatch := rfl
@[simp] theorem storeOut1_sTab (str : List Byte) (s : State) : (storeOut1 str s).sTab = s.sTab := rfl
@[simp] theorem storeOut1_tTab (str : List Byte) (s : State) : (storeOut1 str s).tTab = s.tTab := rfl
@[simp] theorem storeOut1_fwd (str : List Byte) (s : State) : (storeOut1 str s).fwd = s.fwd := rfl
@[simp] theorem storeOut1_bwd (str : List Byte) (s : State) : (storeOut1 str s).bwd = s.bwd := rfl
@[simp] theorem storeOut1_pos (str : List Byte) (s : State) : (storeOut1 str s).pos = str.length := rfl
@[simp] theorem storeOut1_pending (str : List Byte) (s : State) : (storeOut1 str s).pending = s.pending := rfl
@[simp] theorem storeOut1_freeCount (str : List Byte) (s : State) : (storeOut1 str s).freeCount = s.freeCount := rfl
@[simp] theorem storeOut1_reply (str : List Byte) (s : State) : (storeOut1 str s).reply = s.reply := rfl

/-! storeOut2 -/

@[simp] theorem storeOut2_maxLen (str : List Byte) (s : State) : (storeOut2 str s).maxLen = s.maxLen := rfl
@[simp] theorem storeOut2_cmd (str : List Byte) (s : State) : (storeOut2 str s).cmd = s.cmd := rfl
@[simp] theorem storeOut2_len (str : List Byte) (s : State) : (storeOut2 str s).len = s.len := rfl
@[simp] theorem storeOut2_inBuf (str : List Byte) (s : State) : (storeOut2 str s).inBuf = s.inBuf := rfl
@[simp] theorem storeOut2_status (str : List Byte) (s : State) : (storeOut2 str s).status = s.status := rfl
@[simp] theorem storeOut2_err (str : List Byte) (s : State) : (storeOut2 str s).err = s.err := rfl
@[simp] theorem storeOut2_outv (str : List Byte) (s : State) : (storeOut2 str s).outv = s.outv := rfl
@[simp] theorem storeOut2_outlen (str : List Byte) (s : State) : (storeOut2 str s).outlen = s.outlen := rfl
@[simp] theorem storeOut2_result (str : List Byte) (s : State) : (storeOut2 str s).result = s.result := rfl
@[simp] theorem storeOut2_out1 (str : List Byte) (s : State) : (storeOut2 str s).out1 = s.out1 := rfl
@[simp] theorem storeOut2_out2 (str : List Byte) (s : State) : (storeOut2 str s).out2 = Memory.writeString s.out2 0 str := rfl
@[simp] theorem storeOut2_outp (str : List Byte) (s : State) : (storeOut2 str s).outp = s.outp := rfl
@[simp] theorem storeOut2_tbl (str : List Byte) (s : State) : (storeOut2 str s).tbl = s.tbl := rfl
@[simp] theorem storeOut2_kLatch (str : List Byte) (s : State) : (storeOut2 str s).kLatch = s.kLatch := rfl
@[simp] theorem storeOut2_sTab (str : List Byte) (s : State) : (storeOut2 str s).sTab = s.sTab := rfl
@[simp] theorem storeOut2_tTab (str : List Byte) (s : State) : (storeOut2 str s).tTab = s.tTab := rfl
@[simp] theorem storeOut2_fwd (str : List Byte) (s : State) : (storeOut2 str s).fwd = s.fwd := rfl
@[simp] theorem storeOut2_bwd (str : List Byte) (s : State) : (storeOut2 str s).bwd = s.bwd := rfl
@[simp] theorem storeOut2_pos (str : List Byte) (s : State) : (storeOut2 str s).pos = str.length := rfl
@[simp] theorem storeOut2_pending (str : List Byte) (s : State) : (storeOut2 str s).pending = s.pending := rfl
@[simp] theorem storeOut2_freeCount (str : List Byte) (s : State) : (storeOut2 str s).freeCount = s.freeCount := rfl
@[simp] theorem storeOut2_reply (str : List Byte) (s : State) : (storeOut2 str s).reply = s.reply := rfl

/-! storeOutp -/

@[simp] theorem storeOutp_maxLen (str : List Byte) (s : State) : (storeOutp str s).maxLen = s.maxLen := rfl
@[simp] theorem storeOutp_cmd (str : List Byte) (s : State) : (storeOutp str s).cmd = s.cmd := rfl
@[simp] theorem storeOutp_len (str : List Byte) (s : State) : (storeOutp str s).len = s.len := rfl
@[simp] theorem storeOutp_inBuf (str : List Byte) (s : State) : (storeOutp str s).inBuf = s.inBuf := rfl
@[simp] theorem storeOutp_status (str : List Byte) (s : State) : (storeOutp str s).status = s.status := rfl
@[simp] theorem storeOutp_err (str : List Byte) (s : State) : (storeOutp str s).err = s.err := rfl
@[simp] theorem storeOutp_outv (str : List Byte) (s : State) : (storeOutp str s).outv = s.outv := rfl
@[simp] theorem storeOutp_outlen (str : List Byte) (s : State) : (storeOutp str s).outlen = s.outlen := rfl
@[simp] theorem storeOutp_result (str : List Byte) (s : State) : (storeOutp str s).result = s.result := rfl
@[simp] theorem storeOutp_out1 (str : List Byte) (s : State) : (storeOutp str s).out1 = s.out1 := rfl
@[simp] theorem storeOutp_out2 (str : List Byte) (s : State) : (storeOutp str s).out2 = s.out2 := rfl
@[simp] theorem storeOutp_outp (str : List Byte) (s : State) : (storeOutp str s).outp = Memory.writeString s.outp 0 str := rfl
@[simp] theorem storeOutp_tbl (str : List Byte) (s : State) : (storeOutp str s).tbl = s.tbl := rfl
@[simp] theorem storeOutp_kLatch (str : List Byte) (s : State) : (storeOutp str s).kLatch = s.kLatch := rfl
@[simp] theorem storeOutp_sTab (str : List Byte) (s : State) : (storeOutp str s).sTab = s.sTab := rfl
@[simp] theorem storeOutp_tTab (str : List Byte) (s : State) : (storeOutp str s).tTab = s.tTab := rfl
@[simp] theorem storeOutp_fwd (str : List Byte) (s : State) : (storeOutp str s).fwd = s.fwd := rfl
@[simp] theorem storeOutp_bwd (str : List Byte) (s : State) : (storeOutp str s).bwd = s.bwd := rfl
@[simp] theorem storeOutp_pos (str : List Byte) (s : State) : (storeOutp str s).pos = str.length := rfl
@[simp] theorem storeOutp_pending (str : List Byte) (s : State) : (storeOutp str s).pending = s.pending := rfl
@[simp] theorem storeOutp_freeCount (str : List Byte) (s : State) : (storeOutp str s).freeCount = s.freeCount := rfl
@[simp] theorem storeOutp_reply (str : List Byte) (s : State) : (storeOutp str s).reply = s.reply := rfl

/-! storeTbl -/

@[simp] theorem storeTbl_maxLen (codes : List Byte) (s : State) : (storeTbl codes s).maxLen = s.maxLen := rfl
@[simp] theorem storeTbl_cmd (codes : List Byte) (s : State) : (storeTbl codes s).cmd = s.cmd := rfl
@[simp] theorem storeTbl_len (codes : List Byte) (s : State) : (storeTbl codes s).len = s.len := rfl
@[simp] theorem storeTbl_inBuf (codes : List Byte) (s : State) : (storeTbl codes s).inBuf = s.inBuf := rfl
@[simp] theorem storeTbl_status (codes : List Byte) (s : State) : (storeTbl codes s).status = s.status := rfl
@[simp] theorem storeTbl_err (codes : List Byte) (s : State) : (storeTbl codes s).err = s.err := rfl
@[simp] theorem storeTbl_outv (codes : List Byte) (s : State) : (storeTbl codes s).outv = s.outv := rfl
@[simp] theorem storeTbl_outlen (codes : List Byte) (s : State) : (storeTbl codes s).outlen = s.outlen := rfl
@[simp] theorem storeTbl_result (codes : List Byte) (s : State) : (storeTbl codes s).result = s.result := rfl
@[simp] theorem storeTbl_out1 (codes : List Byte) (s : State) : (storeTbl codes s).out1 = s.out1 := rfl
@[simp] theorem storeTbl_out2 (codes : List Byte) (s : State) : (storeTbl codes s).out2 = s.out2 := rfl
@[simp] theorem storeTbl_outp (codes : List Byte) (s : State) : (storeTbl codes s).outp = s.outp := rfl
@[simp] theorem storeTbl_tbl (codes : List Byte) (s : State) : (storeTbl codes s).tbl = Memory.writeString s.tbl 0 codes := rfl
@[simp] theorem storeTbl_kLatch (codes : List Byte) (s : State) : (storeTbl codes s).kLatch = s.kLatch := rfl
@[simp] theorem storeTbl_sTab (codes : List Byte) (s : State) : (storeTbl codes s).sTab = s.sTab := rfl
@[simp] theorem storeTbl_tTab (codes : List Byte) (s : State) : (storeTbl codes s).tTab = s.tTab := rfl
@[simp] theorem storeTbl_fwd (codes : List Byte) (s : State) : (storeTbl codes s).fwd = s.fwd := rfl
@[simp] theorem storeTbl_bwd (codes : List Byte) (s : State) : (storeTbl codes s).bwd = s.bwd := rfl
@[simp] theorem storeTbl_pos (codes : List Byte) (s : State) : (storeTbl codes s).pos = s.pos := rfl
@[simp] theorem storeTbl_pending (codes : List Byte) (s : State) : (storeTbl codes s).pending = s.pending := rfl
@[simp] theorem storeTbl_freeCount (codes : List Byte) (s : State) : (storeTbl codes s).freeCount = s.freeCount := rfl
@[simp] theorem storeTbl_reply (codes : List Byte) (s : State) : (storeTbl codes s).reply = s.reply := rfl

/-! storeResult -/

@[simp] theorem storeResult_maxLen (b : Bool) (s : State) : (storeResult b s).maxLen = s.maxLen := rfl
@[simp] theorem storeResult_cmd (b : Bool) (s : State) : (storeResult b s).cmd = s.cmd := rfl
@[simp] theorem storeResult_len (b : Bool) (s : State) : (storeResult b s).len = s.len := rfl
@[simp] theorem storeResult_inBuf (b : Bool) (s : State) : (storeResult b s).inBuf = s.inBuf := rfl
@[simp] theorem storeResult_status (b : Bool) (s : State) : (storeResult b s).status = s.status := rfl
@[simp] theorem storeResult_err (b : Bool) (s : State) : (storeResult b s).err = s.err := rfl
@[simp] theorem storeResult_outv (b : Bool) (s : State) : (storeResult b s).outv = s.outv := rfl
@[simp] theorem storeResult_outlen (b : Bool) (s : State) : (storeResult b s).outlen = s.outlen := rfl
@[simp] theorem storeResult_result (b : Bool) (s : State) : (storeResult b s).result = (if b then 1 else 0) := rfl
@[simp] theorem storeResult_out1 (b : Bool) (s : State) : (storeResult b s).out1 = s.out1 := rfl
@[simp] theorem storeResult_out2 (b : Bool) (s : State) : (storeResult b s).out2 = s.out2 := rfl
@[simp] theorem storeResult_outp (b : Bool) (s : State) : (storeResult b s).outp = s.outp := rfl
@[simp] theorem storeResult_tbl (b : Bool) (s : State) : (storeResult b s).tbl = s.tbl := rfl
@[simp] theorem storeResult_kLatch (b : Bool) (s : State) : (storeResult b s).kLatch = s.kLatch := rfl
@[simp] theorem storeResult_sTab (b : Bool) (s : State) : (storeResult b s).sTab = s.sTab := rfl
@[simp] theorem storeResult_tTab (b : Bool) (s : State) : (storeResult b s).tTab = s.tTab := rfl
@[simp] theorem storeResult_fwd (b : Bool) (s : State) : (storeResult b s).fwd = s.fwd := rfl
@[simp] theorem storeResult_bwd (b : Bool) (s : State) : (storeResult b s).bwd = s.bwd := rfl
@[simp] theorem storeResult_pos (b : Bool) (s : State) : (storeResult b s).pos = s.pos := rfl
@[simp] theorem storeResult_pending (b : Bool) (s : State) : (storeResult b s).pending = s.pending := rfl
@[simp] theorem storeResult_freeCount (b : Bool) (s : State) : (storeResult b s).freeCount = s.freeCount := rfl
@[simp] theorem storeResult_reply (b : Bool) (s : State) : (storeResult b s).reply = s.reply := rfl

/-! buildS -/

@[simp] theorem buildS_maxLen (s : State) : (buildS s).maxLen = s.maxLen := rfl
@[simp] theorem buildS_cmd (s : State) : (buildS s).cmd = s.cmd := rfl
@[simp] theorem buildS_len (s : State) : (buildS s).len = s.len := rfl
@[simp] theorem buildS_inBuf (s : State) : (buildS s).inBuf = s.inBuf := rfl
@[simp] theorem buildS_status (s : State) : (buildS s).status = s.status := rfl
@[simp] theorem buildS_err (s : State) : (buildS s).err = s.err := rfl
@[simp] theorem buildS_outv (s : State) : (buildS s).outv = s.outv := rfl
@[simp] theorem buildS_outlen (s : State) : (buildS s).outlen = s.outlen := rfl
@[simp] theorem buildS_result (s : State) : (buildS s).result = s.result := rfl
@[simp] theorem buildS_out1 (s : State) : (buildS s).out1 = s.out1 := rfl
@[simp] theorem buildS_out2 (s : State) : (buildS s).out2 = s.out2 := rfl
@[simp] theorem buildS_outp (s : State) : (buildS s).outp = s.outp := rfl
@[simp] theorem buildS_tbl (s : State) : (buildS s).tbl = s.tbl := rfl
@[simp] theorem buildS_kLatch (s : State) : (buildS s).kLatch = s.kLatch := rfl
@[simp] theorem buildS_sTab (s : State) : (buildS s).sTab = shiftedAlphabet s.kLatch := rfl
@[simp] theorem buildS_tTab (s : State) : (buildS s).tTab = s.tTab := rfl
@[simp] theorem buildS_fwd (s : State) : (buildS s).fwd = s.fwd := rfl
@[simp] theorem buildS_bwd (s : State) : (buildS s).bwd = s.bwd := rfl
@[simp] theorem buildS_pos (s : State) : (buildS s).pos = s.pos := rfl
@[simp] theorem buildS_pending (s : State) : (buildS s).pending = s.pending := rfl
@[simp] theorem buildS_freeCount (s : State) : (buildS s).freeCount = s.freeCount := rfl
@[simp] theorem buildS_reply (s : State) : (buildS s).reply = s.reply := rfl

/-! writeMaps -/

@[simp] theorem writeMaps_maxLen (s : State) : (writeMaps s).maxLen = s.maxLen := rfl
@[simp] theorem writeMaps_cmd (s : State) : (writeMaps s).cmd = s.cmd := rfl
@[simp] theorem writeMaps_len (s : State) : (writeMaps s).len = s.len := rfl
@[simp] theorem writeMaps_inBuf (s : State) : (writeMaps s).inBuf = s.inBuf := rfl
@[simp] theorem writeMaps_status (s : State) : (writeMaps s).status = s.status := rfl
@[simp] theorem writeMaps_err (s : State) : (writeMaps s).err = s.err := rfl
@[simp] theorem writeMaps_outv (s : State) : (writeMaps s).outv = s.outv := rfl
@[simp] theorem writeMaps_outlen (s : State) : (writeMaps s).outlen = s.outlen := rfl
@[simp] theorem writeMaps_result (s : State) : (writeMaps s).result = s.result := rfl
@[simp] theorem writeMaps_out1 (s : State) : (writeMaps s).out1 = s.out1 := rfl
@[simp] theorem writeMaps_out2 (s : State) : (writeMaps s).out2 = s.out2 := rfl
@[simp] theorem writeMaps_outp (s : State) : (writeMaps s).outp = s.outp := rfl
@[simp] theorem writeMaps_tbl (s : State) : (writeMaps s).tbl = s.tbl := rfl
@[simp] theorem writeMaps_kLatch (s : State) : (writeMaps s).kLatch = s.kLatch := rfl
@[simp] theorem writeMaps_sTab (s : State) : (writeMaps s).sTab = s.sTab := rfl
@[simp] theorem writeMaps_tTab (s : State) : (writeMaps s).tTab = s.tTab := rfl
@[simp] theorem writeMaps_fwd (s : State) : (writeMaps s).fwd = pairedMap s.sTab s.tTab := rfl
@[simp] theorem writeMaps_bwd (s : State) : (writeMaps s).bwd = pairedMap s.tTab s.sTab := rfl
@[simp] theorem writeMaps_pos (s : State) : (writeMaps s).pos = s.pos := rfl
@[simp] theorem writeMaps_pending (s : State) : (writeMaps s).pending = s.pending := rfl
@[simp] theorem writeMaps_freeCount (s : State) : (writeMaps s).freeCount = s.freeCount := rfl
@[simp] theorem writeMaps_reply (s : State) : (writeMaps s).reply = s.reply := rfl

/-! takeAction -/

@[simp] theorem takeAction_maxLen (rest : List HostAction) (s : State) : (takeAction rest s).maxLen = s.maxLen := rfl
@[simp] theorem takeAction_cmd (rest : List HostAction) (s : State) : (takeAction rest s).cmd = s.cmd := rfl
@[simp] theorem takeAction_len (rest : List HostAction) (s : State) : (takeAction rest s).len = s.len := rfl
@[simp] theorem takeAction_inBuf (rest : List HostAction) (s : State) : (takeAction rest s).inBuf = s.inBuf := rfl
@[simp] theorem takeAction_status (rest : List HostAction) (s : State) : (takeAction rest s).status = s.status := rfl
@[simp] theorem takeAction_err (rest : List HostAction) (s : State) : (takeAction rest s).err = s.err := rfl
@[simp] theorem takeAction_outv (rest : List HostAction) (s : State) : (takeAction rest s).outv = s.outv := rfl
@[simp] theorem takeAction_outlen (rest : List HostAction) (s : State) : (takeAction rest s).outlen = s.outlen := rfl
@[simp] theorem takeAction_result (rest : List HostAction) (s : State) : (takeAction rest s).result = s.result := rfl
@[simp] theorem takeAction_out1 (rest : List HostAction) (s : State) : (takeAction rest s).out1 = s.out1 := rfl
@[simp] theorem takeAction_out2 (rest : List HostAction) (s : State) : (takeAction rest s).out2 = s.out2 := rfl
@[simp] theorem takeAction_outp (rest : List HostAction) (s : State) : (takeAction rest s).outp = s.outp := rfl
@[simp] theorem takeAction_tbl (rest : List HostAction) (s : State) : (takeAction rest s).tbl = s.tbl := rfl
@[simp] theorem takeAction_kLatch (rest : List HostAction) (s : State) : (takeAction rest s).kLatch = s.kLatch := rfl
@[simp] theorem takeAction_sTab (rest : List HostAction) (s : State) : (takeAction rest s).sTab = s.sTab := rfl
@[simp] theorem takeAction_tTab (rest : List HostAction) (s : State) : (takeAction rest s).tTab = s.tTab := rfl
@[simp] theorem takeAction_fwd (rest : List HostAction) (s : State) : (takeAction rest s).fwd = s.fwd := rfl
@[simp] theorem takeAction_bwd (rest : List HostAction) (s : State) : (takeAction rest s).bwd = s.bwd := rfl
@[simp] theorem takeAction_pos (rest : List HostAction) (s : State) : (takeAction rest s).pos = s.pos := rfl
@[simp] theorem takeAction_pending (rest : List HostAction) (s : State) : (takeAction rest s).pending = rest := rfl
@[simp] theorem takeAction_freeCount (rest : List HostAction) (s : State) : (takeAction rest s).freeCount = s.freeCount + 1 := rfl
@[simp] theorem takeAction_reply (rest : List HostAction) (s : State) : (takeAction rest s).reply = s.reply := rfl

/-! hostWriteLen -/

@[simp] theorem hostWriteLen_maxLen (n : Nat) (s : State) : (hostWriteLen n s).maxLen = s.maxLen := rfl
@[simp] theorem hostWriteLen_cmd (n : Nat) (s : State) : (hostWriteLen n s).cmd = s.cmd := rfl
@[simp] theorem hostWriteLen_len (n : Nat) (s : State) : (hostWriteLen n s).len = lenBits s.maxLen n := rfl
@[simp] theorem hostWriteLen_inBuf (n : Nat) (s : State) : (hostWriteLen n s).inBuf = s.inBuf := rfl
@[simp] theorem hostWriteLen_status (n : Nat) (s : State) : (hostWriteLen n s).status = s.status := rfl
@[simp] theorem hostWriteLen_err (n : Nat) (s : State) : (hostWriteLen n s).err = s.err := rfl
@[simp] theorem hostWriteLen_outv (n : Nat) (s : State) : (hostWriteLen n s).outv = s.outv := rfl
@[simp] theorem hostWriteLen_outlen (n : Nat) (s : State) : (hostWriteLen n s).outlen = s.outlen := rfl
@[simp] theorem hostWriteLen_result (n : Nat) (s : State) : (hostWriteLen n s).result = s.result := rfl
@[simp] theorem hostWriteLen_out1 (n : Nat) (s : State) : (hostWriteLen n s).out1 = s.out1 := rfl
@[simp] theorem hostWriteLen_out2 (n : Nat) (s : State) : (hostWriteLen n s).out2 = s.out2 := rfl
@[simp] theorem hostWriteLen_outp (n : Nat) (s : State) : (hostWriteLen n s).outp = s.outp := rfl
@[simp] theorem hostWriteLen_tbl (n : Nat) (s : State) : (hostWriteLen n s).tbl = s.tbl := rfl
@[simp] theorem hostWriteLen_kLatch (n : Nat) (s : State) : (hostWriteLen n s).kLatch = s.kLatch := rfl
@[simp] theorem hostWriteLen_sTab (n : Nat) (s : State) : (hostWriteLen n s).sTab = s.sTab := rfl
@[simp] theorem hostWriteLen_tTab (n : Nat) (s : State) : (hostWriteLen n s).tTab = s.tTab := rfl
@[simp] theorem hostWriteLen_fwd (n : Nat) (s : State) : (hostWriteLen n s).fwd = s.fwd := rfl
@[simp] theorem hostWriteLen_bwd (n : Nat) (s : State) : (hostWriteLen n s).bwd = s.bwd := rfl
@[simp] theorem hostWriteLen_pos (n : Nat) (s : State) : (hostWriteLen n s).pos = s.pos := rfl
@[simp] theorem hostWriteLen_pending (n : Nat) (s : State) : (hostWriteLen n s).pending = s.pending := rfl
@[simp] theorem hostWriteLen_freeCount (n : Nat) (s : State) : (hostWriteLen n s).freeCount = s.freeCount := rfl
@[simp] theorem hostWriteLen_reply (n : Nat) (s : State) : (hostWriteLen n s).reply = .done := rfl

/-! hostRead -/

@[simp] theorem hostRead_maxLen (item : HostItem) (s : State) : (hostRead item s).maxLen = s.maxLen := rfl
@[simp] theorem hostRead_cmd (item : HostItem) (s : State) : (hostRead item s).cmd = s.cmd := rfl
@[simp] theorem hostRead_len (item : HostItem) (s : State) : (hostRead item s).len = s.len := rfl
@[simp] theorem hostRead_inBuf (item : HostItem) (s : State) : (hostRead item s).inBuf = s.inBuf := rfl
@[simp] theorem hostRead_status (item : HostItem) (s : State) : (hostRead item s).status = s.status := rfl
@[simp] theorem hostRead_err (item : HostItem) (s : State) : (hostRead item s).err = s.err := rfl
@[simp] theorem hostRead_outv (item : HostItem) (s : State) : (hostRead item s).outv = s.outv := rfl
@[simp] theorem hostRead_outlen (item : HostItem) (s : State) : (hostRead item s).outlen = s.outlen := rfl
@[simp] theorem hostRead_result (item : HostItem) (s : State) : (hostRead item s).result = s.result := rfl
@[simp] theorem hostRead_out1 (item : HostItem) (s : State) : (hostRead item s).out1 = s.out1 := rfl
@[simp] theorem hostRead_out2 (item : HostItem) (s : State) : (hostRead item s).out2 = s.out2 := rfl
@[simp] theorem hostRead_outp (item : HostItem) (s : State) : (hostRead item s).outp = s.outp := rfl
@[simp] theorem hostRead_tbl (item : HostItem) (s : State) : (hostRead item s).tbl = s.tbl := rfl
@[simp] theorem hostRead_kLatch (item : HostItem) (s : State) : (hostRead item s).kLatch = s.kLatch := rfl
@[simp] theorem hostRead_sTab (item : HostItem) (s : State) : (hostRead item s).sTab = s.sTab := rfl
@[simp] theorem hostRead_tTab (item : HostItem) (s : State) : (hostRead item s).tTab = s.tTab := rfl
@[simp] theorem hostRead_fwd (item : HostItem) (s : State) : (hostRead item s).fwd = s.fwd := rfl
@[simp] theorem hostRead_bwd (item : HostItem) (s : State) : (hostRead item s).bwd = s.bwd := rfl
@[simp] theorem hostRead_pos (item : HostItem) (s : State) : (hostRead item s).pos = s.pos := rfl
@[simp] theorem hostRead_pending (item : HostItem) (s : State) : (hostRead item s).pending = s.pending := rfl
@[simp] theorem hostRead_freeCount (item : HostItem) (s : State) : (hostRead item s).freeCount = s.freeCount := rfl
@[simp] theorem hostRead_reply (item : HostItem) (s : State) : (hostRead item s).reply = readItem s item := rfl

/-! buildT, by the variant -/

@[simp] theorem buildT_reversed_tTab (s : State) : (buildT .reversed s).tTab = reversedAlphabet s.sTab := rfl
@[simp] theorem buildT_vowelFirst_tTab (s : State) : (buildT .vowelFirst s).tTab = romVf := rfl
@[simp] theorem buildT_none (s : State) : buildT .none s = s := rfl
@[simp] theorem buildT_maxLen (var : Variant) (s : State) : (buildT var s).maxLen = s.maxLen := by cases var <;> rfl
@[simp] theorem buildT_cmd (var : Variant) (s : State) : (buildT var s).cmd = s.cmd := by cases var <;> rfl
@[simp] theorem buildT_len (var : Variant) (s : State) : (buildT var s).len = s.len := by cases var <;> rfl
@[simp] theorem buildT_inBuf (var : Variant) (s : State) : (buildT var s).inBuf = s.inBuf := by cases var <;> rfl
@[simp] theorem buildT_status (var : Variant) (s : State) : (buildT var s).status = s.status := by cases var <;> rfl
@[simp] theorem buildT_err (var : Variant) (s : State) : (buildT var s).err = s.err := by cases var <;> rfl
@[simp] theorem buildT_outv (var : Variant) (s : State) : (buildT var s).outv = s.outv := by cases var <;> rfl
@[simp] theorem buildT_outlen (var : Variant) (s : State) : (buildT var s).outlen = s.outlen := by cases var <;> rfl
@[simp] theorem buildT_result (var : Variant) (s : State) : (buildT var s).result = s.result := by cases var <;> rfl
@[simp] theorem buildT_out1 (var : Variant) (s : State) : (buildT var s).out1 = s.out1 := by cases var <;> rfl
@[simp] theorem buildT_out2 (var : Variant) (s : State) : (buildT var s).out2 = s.out2 := by cases var <;> rfl
@[simp] theorem buildT_outp (var : Variant) (s : State) : (buildT var s).outp = s.outp := by cases var <;> rfl
@[simp] theorem buildT_tbl (var : Variant) (s : State) : (buildT var s).tbl = s.tbl := by cases var <;> rfl
@[simp] theorem buildT_kLatch (var : Variant) (s : State) : (buildT var s).kLatch = s.kLatch := by cases var <;> rfl
@[simp] theorem buildT_sTab (var : Variant) (s : State) : (buildT var s).sTab = s.sTab := by cases var <;> rfl
@[simp] theorem buildT_fwd (var : Variant) (s : State) : (buildT var s).fwd = s.fwd := by cases var <;> rfl
@[simp] theorem buildT_bwd (var : Variant) (s : State) : (buildT var s).bwd = s.bwd := by cases var <;> rfl
@[simp] theorem buildT_pos (var : Variant) (s : State) : (buildT var s).pos = s.pos := by cases var <;> rfl
@[simp] theorem buildT_pending (var : Variant) (s : State) : (buildT var s).pending = s.pending := by cases var <;> rfl
@[simp] theorem buildT_freeCount (var : Variant) (s : State) : (buildT var s).freeCount = s.freeCount := by cases var <;> rfl
@[simp] theorem buildT_reply (var : Variant) (s : State) : (buildT var s).reply = s.reply := by cases var <;> rfl

/-! hostReset -/

@[simp] theorem hostReset_maxLen (s : State) : (hostReset s).maxLen = s.maxLen := rfl
@[simp] theorem hostReset_cmd (s : State) : (hostReset s).cmd = State.reset.cmd := rfl
@[simp] theorem hostReset_len (s : State) : (hostReset s).len = State.reset.len := rfl
@[simp] theorem hostReset_inBuf (s : State) : (hostReset s).inBuf = State.reset.inBuf := rfl
@[simp] theorem hostReset_status (s : State) : (hostReset s).status = State.reset.status := rfl
@[simp] theorem hostReset_err (s : State) : (hostReset s).err = State.reset.err := rfl
@[simp] theorem hostReset_outv (s : State) : (hostReset s).outv = State.reset.outv := rfl
@[simp] theorem hostReset_outlen (s : State) : (hostReset s).outlen = State.reset.outlen := rfl
@[simp] theorem hostReset_result (s : State) : (hostReset s).result = State.reset.result := rfl
@[simp] theorem hostReset_out1 (s : State) : (hostReset s).out1 = State.reset.out1 := rfl
@[simp] theorem hostReset_out2 (s : State) : (hostReset s).out2 = State.reset.out2 := rfl
@[simp] theorem hostReset_outp (s : State) : (hostReset s).outp = State.reset.outp := rfl
@[simp] theorem hostReset_tbl (s : State) : (hostReset s).tbl = State.reset.tbl := rfl
@[simp] theorem hostReset_kLatch (s : State) : (hostReset s).kLatch = State.reset.kLatch := rfl
@[simp] theorem hostReset_sTab (s : State) : (hostReset s).sTab = State.reset.sTab := rfl
@[simp] theorem hostReset_tTab (s : State) : (hostReset s).tTab = State.reset.tTab := rfl
@[simp] theorem hostReset_fwd (s : State) : (hostReset s).fwd = State.reset.fwd := rfl
@[simp] theorem hostReset_bwd (s : State) : (hostReset s).bwd = State.reset.bwd := rfl
@[simp] theorem hostReset_pos (s : State) : (hostReset s).pos = State.reset.pos := rfl
@[simp] theorem hostReset_pending (s : State) : (hostReset s).pending = s.pending := rfl
@[simp] theorem hostReset_freeCount (s : State) : (hostReset s).freeCount = s.freeCount := rfl
@[simp] theorem hostReset_reply (s : State) : (hostReset s).reply = .done := rfl

end Sys2Proof.Machine
end

