-- ==== Sys2Proof/Laws/Commands.lean ====
section
/-! SUPPORT. Everything the shared operations of the commands can do, said once. -/

namespace Sys2Proof.Machine

/-- The two ways of `messageCommand`. -/
theorem messageCommand_cases (rest : State → State) (s : State) :
    (¬ MessageFits s ∧ messageCommand rest s = raise .illegalCommand (clearOutputs s)) ∨
    (MessageFits s ∧ messageCommand rest s = rest (clearOutputs s)) := by
  unfold messageCommand MessageFits
  by_cases h : s.maxLen < s.len
  · exact .inl ⟨by omega, by simp [h]⟩
  · exact .inr ⟨by omega, by simp [h]⟩

/-- The two ways of `checkShift`. -/
theorem checkShift_cases (k : Int) (rest : State → State) (s : State) :
    (¬ ShiftLegal k ∧ checkShift k rest s = raise .shiftOutOfRange s) ∨
    (ShiftLegal k ∧ checkShift k rest s = rest s) := by
  unfold checkShift
  by_cases h : shiftInRange k = true
  · exact .inr ⟨(shiftInRange_iff k).1 h, if_pos h⟩
  · exact .inl ⟨fun h' => h ((shiftInRange_iff k).2 h'), if_neg h⟩

/-- The two ways of `checkText`; POS has run to LEN in both. -/
theorem checkText_cases (rest : State → State) (s : State) :
    (¬ TextValid s ∧ checkText rest s = raise .invalidCharacter { s with pos := s.len }) ∨
    (TextValid s ∧ checkText rest s = rest { s with pos := s.len }) := by
  unfold checkText
  by_cases h : isValidText (readMessage s) = true
  · exact .inr ⟨(isValidText_readMessage s).1 h, if_pos h⟩
  · exact .inl ⟨fun h' => h ((isValidText_readMessage s).2 h'), if_neg h⟩

theorem textValid_clearOutputs (s : State) : TextValid (clearOutputs s) ↔ TextValid s := Iff.rfl

/-- The state in which the body of a cipher command runs (R130): the outputs cleared, POS at LEN, K loaded. -/
def bodyState (k : Int) (s : State) : State := latchShift k { clearOutputs s with pos := s.len }

@[simp] theorem bodyState_maxLen (k : Int) (s : State) : (bodyState k s).maxLen = s.maxLen := rfl
@[simp] theorem bodyState_cmd (k : Int) (s : State) : (bodyState k s).cmd = s.cmd := rfl
@[simp] theorem bodyState_len (k : Int) (s : State) : (bodyState k s).len = s.len := rfl
@[simp] theorem bodyState_inBuf (k : Int) (s : State) : (bodyState k s).inBuf = s.inBuf := rfl
@[simp] theorem bodyState_status (k : Int) (s : State) : (bodyState k s).status = s.status := rfl
@[simp] theorem bodyState_err (k : Int) (s : State) : (bodyState k s).err = s.err := rfl
@[simp] theorem bodyState_outv (k : Int) (s : State) : (bodyState k s).outv = 0 := rfl
@[simp] theorem bodyState_outlen (k : Int) (s : State) : (bodyState k s).outlen = 0 := rfl
@[simp] theorem bodyState_result (k : Int) (s : State) : (bodyState k s).result = s.result := rfl
@[simp] theorem bodyState_out1 (k : Int) (s : State) : (bodyState k s).out1 = s.out1 := rfl
@[simp] theorem bodyState_out2 (k : Int) (s : State) : (bodyState k s).out2 = s.out2 := rfl
@[simp] theorem bodyState_outp (k : Int) (s : State) : (bodyState k s).outp = s.outp := rfl
@[simp] theorem bodyState_tbl (k : Int) (s : State) : (bodyState k s).tbl = s.tbl := rfl
@[simp] theorem bodyState_kLatch (k : Int) (s : State) : (bodyState k s).kLatch = BitVec.ofInt 5 k := rfl
@[simp] theorem bodyState_sTab (k : Int) (s : State) : (bodyState k s).sTab = s.sTab := rfl
@[simp] theorem bodyState_tTab (k : Int) (s : State) : (bodyState k s).tTab = s.tTab := rfl
@[simp] theorem bodyState_fwd (k : Int) (s : State) : (bodyState k s).fwd = s.fwd := rfl
@[simp] theorem bodyState_bwd (k : Int) (s : State) : (bodyState k s).bwd = s.bwd := rfl
@[simp] theorem bodyState_pos (k : Int) (s : State) : (bodyState k s).pos = s.len := rfl
@[simp] theorem bodyState_pending (k : Int) (s : State) : (bodyState k s).pending = s.pending := rfl
@[simp] theorem bodyState_freeCount (k : Int) (s : State) : (bodyState k s).freeCount = s.freeCount := rfl
@[simp] theorem bodyState_reply (k : Int) (s : State) : (bodyState k s).reply = s.reply := rfl
@[simp] theorem readMessage_bodyState (k : Int) (s : State) : readMessage (bodyState k s) = readMessage s := rfl

/-- The four ways of a cipher command, in the order of R158. -/
theorem cipherCommand_cases (k : Int) (body : State → State) (s : State) :
    (¬ MessageFits s ∧ cipherCommand k body s = raise .illegalCommand (clearOutputs s)) ∨
    (MessageFits s ∧ ¬ ShiftLegal k ∧ cipherCommand k body s = raise .shiftOutOfRange (clearOutputs s)) ∨
    (MessageFits s ∧ ShiftLegal k ∧ ¬ TextValid s ∧
      cipherCommand k body s = raise .invalidCharacter { clearOutputs s with pos := s.len }) ∨
    (MessageFits s ∧ ShiftLegal k ∧ TextValid s ∧ cipherCommand k body s = body (bodyState k s)) := by
  unfold cipherCommand
  rcases messageCommand_cases (checkShift k (checkText fun t => body (latchShift k t))) s with ⟨h, e⟩ | ⟨h, e⟩
  · exact .inl ⟨h, e⟩
  · rcases checkShift_cases k (checkText fun t => body (latchShift k t)) (clearOutputs s) with ⟨h2, e2⟩ | ⟨h2, e2⟩
    · exact .inr (.inl ⟨h, h2, e.trans e2⟩)
    · rcases checkText_cases (fun t => body (latchShift k t)) (clearOutputs s) with ⟨h3, e3⟩ | ⟨h3, e3⟩
      · exact .inr (.inr (.inl ⟨h, h2, h3, (e.trans e2).trans e3⟩))
      · exact .inr (.inr (.inr ⟨h, h2, h3, (e.trans e2).trans e3⟩))

/-- The two ways of MAP_TABLE. -/
theorem mapTableCommand_cases (k : Int) (var : Variant) (s : State) :
    (¬ ShiftLegal k ∧ mapTableCommand k var s = raise .shiftOutOfRange (clearOutputs s)) ∨
    (ShiftLegal k ∧ mapTableCommand k var s = mapTableBody var (latchShift k (clearOutputs s))) :=
  checkShift_cases k (fun t => mapTableBody var (latchShift k t)) (clearOutputs s)

/-- The two ways of `BuildMaps` and what follows it. -/
theorem buildMaps_cases (rest : State → State) (s : State) :
    ((isPerm s.sTab && isPerm s.tTab) = false ∧ buildMaps rest s = raise .tableFault s) ∨
    ((isPerm s.sTab && isPerm s.tTab) = true ∧ buildMaps rest s = rest (writeMaps s)) := by
  unfold buildMaps
  cases h : (isPerm s.sTab && isPerm s.tTab) <;> simp

end Sys2Proof.Machine
end

