-- ==== Sys2Proof/Laws/HostPort.lean ====
section
/-! SUPPORT. Everything the host's actions can do, said once. -/

namespace Sys2Proof.Machine

/-- A step takes the host's next action. -/
theorem step_of_pending {s : State} {a : HostAction} {rest : List HostAction} (h : s.pending = a :: rest) :
    step s = hostAction a (takeAction rest s) := by
  simp only [step, h]

/-- What a step can be: idle, or the host's next action in the state that has taken it. -/
theorem step_cases (s : State) :
    (s.pending = [] ∧ step s = .next s) ∨
    ∃ a rest, s.pending = a :: rest ∧ step s = hostAction a (takeAction rest s) := by
  cases h : s.pending with
  | nil => exact .inl ⟨rfl, by simp only [step, h]⟩
  | cons a rest => exact .inr ⟨a, rest, rfl, step_of_pending h⟩

/-- A run goes on from the state that its first step answers. -/
theorem core_run_succ {s t : State} (n : Nat) (h : step s = .next t) :
    Sys2Proof.core.run (n + 1) s = Sys2Proof.core.run n t := by
  have h' : Sys2Proof.core.step s = .next t := h
  simp only [Host.Core.run, h']

/-- The two ways of an issue. -/
theorem issue_cases (w : Word) (s : State) :
    (∃ i, decode w = .ok i ∧ issue w s = exec i { s with cmd := w, reply := .done }) ∨
    (∃ e, decode w = .error e ∧
      issue w s = .next (raise .illegalCommand (clearOutputs { s with cmd := w, reply := .done }))) := by
  cases h : decode w with
  | ok i => exact .inl ⟨i, rfl, by simp only [issue, h]⟩
  | error e => exact .inr ⟨e, rfl, by simp only [issue, h]⟩

/-- The two ways of `WR IN[p], v`. -/
theorem hostWriteIn_cases (p : Nat) (v : Byte) (s : State) :
    (p < s.maxLen ∧ hostWriteIn p v s = { s with inBuf := Memory.write s.inBuf p v, reply := .done }) ∨
    (s.maxLen ≤ p ∧ hostWriteIn p v s = { s with reply := .refused }) := by
  by_cases h : p < s.maxLen
  · exact .inl ⟨h, if_pos h⟩
  · exact .inr ⟨by omega, if_neg h⟩

/-- A write to a result item changes the interface's answer only. -/
theorem hostWriteResult_eq (r : ResultItem) (s : State) :
    hostWriteResult r s = { s with reply := (hostWriteResult r s).reply } := by
  unfold hostWriteResult
  split <;> rfl

/-- A number written to LEN fits its width, and is stored as written when it does. -/
theorem lenBits_lt (maxLen n : Nat) : lenBits maxLen n < 2 ^ lenWidth maxLen :=
  Nat.mod_lt _ (Nat.two_pow_pos _)

theorem lenBits_of_lt {maxLen n : Nat} (h : n < 2 ^ lenWidth maxLen) : lenBits maxLen n = n := Nat.mod_eq_of_lt h

/-- An element that holds a value is what a host read of it returns. -/
theorem outputByte_of_read {s : State} {m : Memory} {a : Nat} {c : Byte} (h : Memory.read m a = some c) :
    outputByte s true m a = c := by
  simp only [outputByte, h]

/-! ### The host-side pseudo-instructions (R70) -/

/-- What a read of a result item answers depends on no field that a host action other than an issue or a reset writes,
but for the count of the actions. -/
@[simp] theorem readResult_hostFields (s : State) (r : ResultItem) (b : Memory) (n : Nat) (q : List HostAction)
    (a : HostReply) :
    readResult { s with inBuf := b, len := n, pending := q, reply := a } r = readResult s r := by
  cases r <;> rfl

/-- The same of the actions of a copy. -/
theorem copyFrom_hostFields (item : Nat → ResultItem) (b : Memory) (l : Nat) (q : List HostAction) (a : HostReply) (n : Nat) :
    ∀ (s : State) (p : Nat),
      copyFrom item { s with inBuf := b, len := l, pending := q, reply := a } n p = copyFrom item s n p := by
  induction n with
  | zero => exact fun s p => rfl
  | succ n ih =>
    intro s p
    have hr := readResult_hostFields { s with freeCount := s.freeCount + 1 } (item p) b l q a
    have ht := ih { s with freeCount := s.freeCount + 2 } (p + 1)
    simp only [copyFrom]
    rw [← ht, ← hr]

/-- A read of an element of OUT1, OUT2 or OUTP answers a number of 8 bits. -/
theorem readResult_ofNat {item : Nat → ResultItem} (h : item ∈ [ResultItem.out1, ResultItem.out2, ResultItem.outp])
    (s : State) (p : Nat) : (BitVec.ofNat 8 (readResult s (item p))).toNat = readResult s (item p) := by
  simp only [List.mem_cons, List.not_mem_nil, or_false] at h
  rcases h with rfl | rfl | rfl <;> simp only [readResult, BitVec.ofNat_toNat, BitVec.setWidth_eq]

/-- An element of OUT1, OUT2 or OUTP below MAXLEN is present. -/
theorem present_of_lt {item : Nat → ResultItem} (h : item ∈ [ResultItem.out1, ResultItem.out2, ResultItem.outp])
    {n p : Nat} (hp : p < n) : (item p).present n = true := by
  simp only [List.mem_cons, List.not_mem_nil, or_false] at h
  rcases h with rfl | rfl | rfl <;> exact decide_eq_true hp

/-- One position of a copy: the read answers a byte, the write that follows stores that byte, and the copy goes on. -/
theorem copyFrom_step {item : Nat → ResultItem} (h : item ∈ [ResultItem.out1, ResultItem.out2, ResultItem.outp])
    {s : State} {n p : Nat} {rest : List HostAction} (hp : p < s.maxLen)
    (hs : s.pending = copyFrom item s (n + 1) p ++ rest) :
    ∃ (c : Byte) (u t : State),
      s.pending.head? = some (.read (.res (item p))) ∧
      step s = .next u ∧ u.pending.head? = some (.writeIn p c) ∧ u.reply = .value c.toNat ∧
      step u = .next t ∧
      t = { s with
            inBuf := Memory.write s.inBuf p c, pending := t.pending, freeCount := s.freeCount + 2, reply := .done } ∧
      t.pending = copyFrom item t n (p + 1) ++ rest := by
  let c : Byte := BitVec.ofNat 8 (readResult { s with freeCount := s.freeCount + 1 } (item p))
  let q : List HostAction := copyFrom item { s with freeCount := s.freeCount + 2 } n (p + 1) ++ rest
  have hs : s.pending = .read (.res (item p)) :: .writeIn p c :: q := hs
  let u : State := hostRead (.res (item p)) (takeAction (.writeIn p c :: q) s)
  have hu : u.reply = .value c.toNat := by
    have hr := readResult_hostFields { s with freeCount := s.freeCount + 1 } (item p) s.inBuf s.len
      (.writeIn p c :: q) s.reply
    have : u.reply = .value (readResult { s with freeCount := s.freeCount + 1 } (item p)) := by
      rw [← hr]
      exact if_pos (present_of_lt h hp)
    rw [this, readResult_ofNat h]
  let t : State := hostWriteIn p c (takeAction q u)
  have ht : t = { s with inBuf := Memory.write s.inBuf p c, pending := q, freeCount := s.freeCount + 2, reply := .done } :=
    if_pos hp
  refine ⟨c, u, t, by rw [hs]; rfl, step_of_pending hs, rfl, hu,
    step_of_pending (s := u) (a := .writeIn p c) (rest := q) rfl, ?_, ?_⟩
  · rw [ht]
  · rw [ht]
    exact congrArg (· ++ rest) (copyFrom_hostFields item (Memory.write s.inBuf p c) s.len q .done n
      { s with freeCount := s.freeCount + 2 } (p + 1)).symm

end Sys2Proof.Machine
end

