-- ==== Sys2Proof/Laws/Memory.lean ====
section
/-! SUPPORT. The laws of a buffer: a read after a write, a read after a string is written, and that every operation keeps
the canonical form and the index range. -/

namespace Sys2Proof.Machine

@[simp] theorem read_nil (a : Nat) : Memory.read [] a = none := rfl

theorem read_cons (b : Nat) (v : Byte) (rest : Memory) (a : Nat) :
    Memory.read ((b, v) :: rest) a = if b = a then some v else Memory.read rest a := rfl

/-- A read after a write of one element. -/
theorem read_write (m : Memory) (a b : Nat) (v : Byte) :
    Memory.read (Memory.write m a v) b = if b = a then some v else Memory.read m b := by
  induction m with
  | nil => simp [Memory.write, Memory.read, eq_comm]
  | cons cell rest ih =>
    obtain ⟨c, w⟩ := cell
    simp only [Memory.write]
    by_cases h1 : a < c
    · rw [if_pos h1, read_cons]
      by_cases h : b = a
      · rw [if_pos h.symm, if_pos h]
      · rw [if_neg (fun e => h e.symm), if_neg h]
    · rw [if_neg h1]
      by_cases h2 : a = c
      · subst h2
        rw [if_pos rfl, read_cons, read_cons]
        by_cases h : b = a
        · rw [if_pos h.symm, if_pos h]
        · rw [if_neg (fun e => h e.symm), if_neg h, if_neg (fun e => h e.symm)]
      · rw [if_neg h2, read_cons, read_cons, ih]
        by_cases h : c = b
        · rw [if_pos h, if_pos h, if_neg (fun e => h2 (e.symm.trans h.symm))]
        · rw [if_neg h, if_neg h]

@[simp] theorem read_write_same (m : Memory) (a : Nat) (v : Byte) : Memory.read (Memory.write m a v) a = some v := by
  simp [read_write]

theorem read_write_other (m : Memory) {a b : Nat} (v : Byte) (h : b ≠ a) :
    Memory.read (Memory.write m a v) b = Memory.read m b := by
  simp [read_write, h]

/-- Everything a written string does to a buffer, read element by element. -/
theorem read_writeString (str : List Byte) (m : Memory) (a b : Nat) :
    Memory.read (Memory.writeString m a str) b =
      if h : a ≤ b ∧ b < a + str.length then some (str[b - a]'(by omega)) else Memory.read m b := by
  induction str generalizing m a with
  | nil =>
    rw [dif_neg (by simp)]
    rfl
  | cons c cs ih =>
    rw [Memory.writeString, ih, read_write]
    by_cases h1 : b = a
    · subst h1
      simp
    · by_cases h2 : a + 1 ≤ b ∧ b < a + 1 + cs.length
      · have h3 : a ≤ b ∧ b < a + (c :: cs).length := by simp; omega
        have h4 : b - a = (b - (a + 1)) + 1 := by omega
        rw [dif_pos h2, dif_pos h3]
        simp only [h4, List.getElem_cons_succ]
      · have h3 : ¬ (a ≤ b ∧ b < a + (c :: cs).length) := by simp; omega
        rw [dif_neg h2, dif_neg h3, if_neg h1]

/-- A string written from element 0 up: what each element holds after. -/
theorem stringStored_writeString (m : Memory) (str : List Byte) (f : Nat → Byte)
    (hf : ∀ p (h : p < str.length), str[p] = f p) :
    StringStored m (Memory.writeString m 0 str) str.length f := by
  refine ⟨fun p hp => ?_, fun p hp => ?_⟩
  · rw [read_writeString, dif_pos ⟨Nat.zero_le _, by omega⟩]
    simp [hf p hp]
  · rw [read_writeString, dif_neg (by omega)]

theorem rising_write (m : Memory) (lo : Option Nat) (a : Nat) (v : Byte)
    (h : Memory.risingFrom lo m = true) (hlo : ∀ l, lo = some l → l < a) :
    Memory.risingFrom lo (Memory.write m a v) = true := by
  induction m generalizing lo with
  | nil => cases lo <;> simp_all [Memory.write, Memory.risingFrom]
  | cons cell rest ih =>
    obtain ⟨c, w⟩ := cell
    have hrest : Memory.risingFrom (some c) rest = true := by
      cases lo <;> simp_all [Memory.risingFrom]
    have hc : ∀ l, lo = some l → l < c := by
      intro l hl; subst hl; simp_all [Memory.risingFrom]
    simp only [Memory.write]
    split_ifs with h1 h2
    · cases lo <;> simp_all [Memory.risingFrom]
    · subst h2; cases lo <;> simp_all [Memory.risingFrom]
    · have := ih (some c) hrest (by simp; omega)
      cases lo <;> simp_all [Memory.risingFrom]

/-- A write keeps the canonical form. -/
theorem wf_write (m : Memory) (a : Nat) (v : Byte) (h : Memory.wf m = true) :
    Memory.wf (Memory.write m a v) = true :=
  rising_write m none a v h (by simp)

/-- A written string keeps the canonical form. -/
theorem wf_writeString (str : List Byte) (m : Memory) (a : Nat) (h : Memory.wf m = true) :
    Memory.wf (Memory.writeString m a str) = true := by
  induction str generalizing m a with
  | nil => exact h
  | cons c cs ih => exact ih _ _ (wf_write m a c h)

@[simp] theorem wf_nil : Memory.wf [] = true := rfl

/-- Every buffer of the reset state has the canonical form. -/
theorem reset_memory_wf :
    Memory.wf State.reset.inBuf = true ∧ Memory.wf State.reset.out1 = true ∧ Memory.wf State.reset.out2 = true ∧
    Memory.wf State.reset.outp = true ∧ Memory.wf State.reset.tbl = true := ⟨rfl, rfl, rfl, rfl, rfl⟩

theorem boundedBy_write {n : Nat} {m : Memory} {a : Nat} (v : Byte) (ha : a < n) (h : BoundedBy n m) :
    BoundedBy n (Memory.write m a v) := by
  intro b hb
  rw [read_write_other m v (by omega)]
  exact h b hb

theorem boundedBy_writeString {n : Nat} {m : Memory} {a : Nat} (str : List Byte) (ha : a + str.length ≤ n)
    (h : BoundedBy n m) : BoundedBy n (Memory.writeString m a str) := by
  intro b hb
  rw [read_writeString, dif_neg (by omega)]
  exact h b hb

end Sys2Proof.Machine
end

