-- ==== Sys2Proof/Laws/PerInstr.lean ====
section
/-! SUPPORT. Families of statements about every command, one lemma per constructor of `Instr`. -/

namespace Sys2Proof.Laws

/-- The fixed low byte of a command's word: the `match` column of R64. -/
def lowByte : Instr → Byte
  | .isValid => 0x01
  | .encCaesar _ => 0x02
  | .decCaesar _ => 0x03
  | .encDoubleRev _ => 0x0C
  | .encDoubleVf _ => 0x14
  | .decDoubleRev _ => 0x0D
  | .decDoubleVf _ => 0x15
  | .mapTableRev _ => 0x0E
  | .mapTableVf _ => 0x16

/-- The low byte of a command's word is the one R64 gives its row, whatever its shift. -/
def OpcodeByte.Statement (i : Instr) : Prop := (encode i).setWidth 8 = lowByte i

theorem assemble_low (k : Int) (var : BitVec 2) (op : BitVec 3) :
    (assemble k var op).setWidth 8 = 0#3 ++ (var ++ op) := by
  simp only [assemble]
  exact BitVec.setWidth_append_eq_right

theorem OpcodeByte.isValid : OpcodeByte.Statement .isValid := by unfold OpcodeByte.Statement; decide
theorem OpcodeByte.encCaesar (k : Int) : OpcodeByte.Statement (.encCaesar k) := assemble_low k 0 2
theorem OpcodeByte.decCaesar (k : Int) : OpcodeByte.Statement (.decCaesar k) := assemble_low k 0 3
theorem OpcodeByte.encDoubleRev (k : Int) : OpcodeByte.Statement (.encDoubleRev k) := assemble_low k 1 4
theorem OpcodeByte.encDoubleVf (k : Int) : OpcodeByte.Statement (.encDoubleVf k) := assemble_low k 2 4
theorem OpcodeByte.decDoubleRev (k : Int) : OpcodeByte.Statement (.decDoubleRev k) := assemble_low k 1 5
theorem OpcodeByte.decDoubleVf (k : Int) : OpcodeByte.Statement (.decDoubleVf k) := assemble_low k 2 5
theorem OpcodeByte.mapTableRev (k : Int) : OpcodeByte.Statement (.mapTableRev k) := assemble_low k 1 6
theorem OpcodeByte.mapTableVf (k : Int) : OpcodeByte.Statement (.mapTableVf k) := assemble_low k 2 6

end Sys2Proof.Laws
end

