-- ==== Sys2Proof/Laws/Tables.lean ====
section
/-! SUPPORT. What the tables hold, entry by entry. -/

namespace Sys2Proof.Machine

theorem tableOf_getElem (f : Nat → Index) (i : Nat) (h : i < 26) : (tableOf f)[i] = f i := by
  have e : (tableOf f)[i] = ((List.range 26).map f)[i]'(by simpa using h) := rfl
  rw [e]
  simp

/-- A lookup at a letter index is the entry. -/
theorem tableGet_of_lt (t : Table) (a : Index) (h : a.toNat < 26) : tableGet t a = t[a.toNat] := dif_pos h

/-- A lookup at a position 0 to 25, given as a number. -/
theorem tableGet_ofNat (t : Table) (i : Nat) (h : i < 26) : tableGet t (BitVec.ofNat 5 i) = t[i] := by
  have hi : (BitVec.ofNat 5 i).toNat = i := by simp; omega
  rw [tableGet_of_lt _ _ (by omega)]
  simp only [hi]

/-- The entries of S (R100). -/
theorem shiftedAlphabet_getElem (k : Index) (i : Nat) (h : i < 26) :
    (shiftedAlphabet k)[i] = shiftForward (BitVec.ofNat 5 i) k := tableOf_getElem _ i h

/-- The entries of the reversed alphabet (R103). -/
theorem reversedAlphabet_getElem (s : Table) (i : Nat) (h : i < 26) : (reversedAlphabet s)[i] = s[25 - i] := by
  unfold reversedAlphabet
  rw [tableOf_getElem _ i h, tableGet_ofNat _ _ (by omega)]

/-- A lookup in a table of letter indices gives a letter index. -/
theorem tableGet_lt {t : Table} (ht : IndexTable t) (a : Index) : (tableGet t a).toNat < 26 := by
  by_cases h : a.toNat < 26
  · rw [tableGet_of_lt t a h]; exact ht ⟨a.toNat, h⟩
  · rw [tableGet, dif_neg h]; decide

theorem indexTable_zeroTable : IndexTable zeroTable := by unfold IndexTable; decide +kernel

theorem indexTable_romVf : IndexTable romVf := by unfold IndexTable; decide +kernel

theorem indexTable_shiftedAlphabet (k : Index) : IndexTable (shiftedAlphabet k) := by
  intro i
  rw [shiftedAlphabet_getElem k i.val i.isLt]
  exact (shift_lt _ _).1

theorem indexTable_reversedAlphabet {s : Table} (h : IndexTable s) : IndexTable (reversedAlphabet s) := by
  intro i
  rw [reversedAlphabet_getElem s i.val i.isLt]
  exact h ⟨25 - i.val, by omega⟩

/-- What a list of writes leaves at a place that none of them names. -/
theorem writePairs_getElem_of_notMem (ps : List (Index × Index)) (m : List Index) (a : Nat)
    (h : ∀ p ∈ ps, p.1.toNat ≠ a) : (writePairs ps m)[a]? = m[a]? := by
  induction ps generalizing m with
  | nil => rfl
  | cons p rest ih =>
    rw [writePairs, ih _ fun q hq => h q (List.mem_cons_of_mem _ hq)]
    simp [h p List.mem_cons_self]

/-- What a list of writes to pairwise different places leaves at the place of each. -/
theorem writePairs_getElem_of_mem (ps : List (Index × Index)) (m : List Index) (p : Index × Index) (hp : p ∈ ps)
    (hd : (ps.map fun q => q.1.toNat).Nodup) (hm : p.1.toNat < m.length) :
    (writePairs ps m)[p.1.toNat]? = some p.2 := by
  induction ps generalizing m with
  | nil => cases hp
  | cons q rest ih =>
    simp only [List.map_cons, List.nodup_cons] at hd
    rcases List.mem_cons.1 hp with rfl | hr
    · rw [writePairs, writePairs_getElem_of_notMem]
      · simp [hm]
      · intro r hr e
        exact hd.1 (List.mem_map.2 ⟨r, hr, e⟩)
    · rw [writePairs]
      exact ih _ hr hd.2 (by simpa using hm)

/-- Every entry that a list of writes leaves was there before or was written. -/
theorem writePairs_mem (ps : List (Index × Index)) (m : List Index) (x : Index) (h : x ∈ writePairs ps m) :
    x ∈ m ∨ ∃ p ∈ ps, p.2 = x := by
  induction ps generalizing m with
  | nil => exact .inl h
  | cons p rest ih =>
    rcases ih _ h with h | ⟨q, hq, e⟩
    · rcases List.mem_or_eq_of_mem_set h with h | h
      · exact .inl h
      · exact .inr ⟨p, List.mem_cons_self, h.symm⟩
    · exact .inr ⟨q, List.mem_cons_of_mem _ hq, e⟩

end Sys2Proof.Machine
end

