-- ==== Sys2Proof/Tests/Slice0.lean ====
section
/-! SUPPORT. The model's own tests: the checks of WellFormed, words written out from spec/30_encoding.md R60, one step at a
time on the worked examples and vectors of spec/95_test_vectors.md, and a witness for every statement with hypotheses. -/

-- The tests are elaborated one after another: many kernel evaluations at once each wait on a thread of their own.
set_option Elab.async false

namespace Sys2Proof.Tests

open Sys2Proof.Machine

/-! ### WellFormed: each check refuses a shift just outside -128..127 -/

theorem test_illformed_encCaesar : (Instr.encCaesar 128).wf = false ∧ (Instr.encCaesar (-129)).wf = false := by decide
theorem test_illformed_decCaesar : (Instr.decCaesar 128).wf = false ∧ (Instr.decCaesar (-129)).wf = false := by decide
theorem test_illformed_encDoubleRev :
    (Instr.encDoubleRev 128).wf = false ∧ (Instr.encDoubleRev (-129)).wf = false := by decide
theorem test_illformed_encDoubleVf :
    (Instr.encDoubleVf 128).wf = false ∧ (Instr.encDoubleVf (-129)).wf = false := by decide
theorem test_illformed_decDoubleRev :
    (Instr.decDoubleRev 128).wf = false ∧ (Instr.decDoubleRev (-129)).wf = false := by decide
theorem test_illformed_decDoubleVf :
    (Instr.decDoubleVf 128).wf = false ∧ (Instr.decDoubleVf (-129)).wf = false := by decide
theorem test_illformed_mapTableRev :
    (Instr.mapTableRev 128).wf = false ∧ (Instr.mapTableRev (-129)).wf = false := by decide
theorem test_illformed_mapTableVf :
    (Instr.mapTableVf 128).wf = false ∧ (Instr.mapTableVf (-129)).wf = false := by decide

/-! ### Decode: the word of every constructor, written out as SHIFT RSV VAR OP (R60, R64; 95 section 8) -/

theorem test_decode_isValid : decode 0b0000000000000001 = .ok .isValid := by decide
theorem test_decode_encCaesar : decode 0b0000001100000010 = .ok (.encCaesar 3) := by decide
theorem test_decode_decCaesar : decode 0b0001100100000011 = .ok (.decCaesar 25) := by decide
theorem test_decode_encDoubleRev : decode 0b0000001100001100 = .ok (.encDoubleRev 3) := by decide
theorem test_decode_encDoubleVf : decode 0b0000001100010100 = .ok (.encDoubleVf 3) := by decide
theorem test_decode_decDoubleRev : decode 0b1111111100001101 = .ok (.decDoubleRev (-1)) := by decide
theorem test_decode_decDoubleVf : decode 0b0000110100010101 = .ok (.decDoubleVf 13) := by decide
theorem test_decode_mapTableRev : decode 0b0000000000001110 = .ok (.mapTableRev 0) := by decide
theorem test_decode_mapTableVf : decode 0b1000000000010110 = .ok (.mapTableVf (-128)) := by decide
theorem test_decode_reserved_op : decode 0b0000001100000111 = .error .reservedOp := by decide
theorem test_decode_reserved_bits : decode 0b0000001100100010 = .error .reservedBits := by decide
theorem test_decode_reserved_variant : decode 0b0000001100011100 = .error .reservedVariant := by decide
theorem test_decode_variant_missing : decode 0b0000001100000100 = .error .variantNotAdmitted := by decide
theorem test_decode_isValid_shift : decode 0b1000000000000001 = .error .shiftNotAdmitted := by decide
theorem test_decodeTableWord : decodeTableWord 16 0x0314 = some (.encDoubleVf 3) := by decide
theorem test_encode_encDoubleVf : encode (.encDoubleVf 3) = 0x0314 := by decide

/-! ### Small states -/

/-- A message in IN from element 0, its length in LEN, an MAXLEN of `n`. -/
def holding (n : Nat) (msg : List Byte) : State :=
  { State.resetOf n with inBuf := Memory.writeString [] 0 msg, len := msg.length }

/-- The state of a step that answers one; `State.reset` otherwise. -/
def next (o : Host.Outcome State Fault Refusal) : State :=
  match o with
  | .next t => t
  | .fault _ => State.reset
  | .refused _ => State.reset

/-- One step that issues a word. -/
def issued (s : State) (w : Word) : State := next (step { s with pending := [.issue w] })

/-- One step of the host's. -/
def acted (s : State) (a : HostAction) : State := next (step { s with pending := [a] })

/-- "apple" -/
def apple : List Byte := [0x61, 0x70, 0x70, 0x6C, 0x65]
/-- "apple123" -/
def apple123 : List Byte := [0x61, 0x70, 0x70, 0x6C, 0x65, 0x31, 0x32, 0x33]
/-- "DSSOH" -/
def dssoh : List Byte := [0x44, 0x53, 0x53, 0x4F, 0x48]
/-- "CNNRY" -/
def cnnry : List Byte := [0x43, 0x4E, 0x4E, 0x52, 0x59]
/-- "ANNJU" -/
def annju : List Byte := [0x41, 0x4E, 0x4E, 0x4A, 0x55]

/-! ### One step on the worked examples (95 sections 1, 2.2, 7.3, 9) -/

theorem test_isValid_apple123 :
    (issued (holding 8 apple123) 0x0001).status = 1 ∧ (issued (holding 8 apple123) 0x0001).outv = 0x08 ∧
    (issued (holding 8 apple123) 0x0001).result = 0 := by decide +kernel
theorem test_isValid_empty : (issued State.reset 0x0001).result = 1 := by decide +kernel
theorem test_encCaesar_apple :
    (issued (holding 5 apple) 0x0302).out1 = Memory.writeString [] 0 dssoh ∧
    (issued (holding 5 apple) 0x0302).outlen = 5 ∧ (issued (holding 5 apple) 0x0302).outv = 0x01 := by decide +kernel
/-- "  a  " with shift 7 gives "  H  " (95 section 6). -/
theorem test_encCaesar_spaces :
    (issued (holding 5 [0x20, 0x20, 0x61, 0x20, 0x20]) 0x0702).out1 =
      Memory.writeString [] 0 [0x20, 0x20, 0x48, 0x20, 0x20] := by decide +kernel
theorem test_decCaesar_dssoh :
    (issued (holding 5 dssoh) 0x0303).outp = Memory.writeString [] 0 apple ∧
    (issued (holding 5 dssoh) 0x0303).outv = 0x04 := by decide +kernel
/-- "ABC" with shift 3 gives "xyz": the subtraction goes below 0 (95 section 3.3). -/
theorem test_decCaesar_wraps :
    (issued (holding 3 [0x41, 0x42, 0x43]) 0x0303).outp = [(0, 0x78), (1, 0x79), (2, 0x7A)] := by decide +kernel
theorem test_encDoubleRev_apple :
    (issued (holding 5 apple) 0x030C).out1 = Memory.writeString [] 0 dssoh ∧
    (issued (holding 5 apple) 0x030C).out2 = Memory.writeString [] 0 cnnry ∧
    (issued (holding 5 apple) 0x030C).outv = 0x03 := by decide +kernel
/-- "Z" with shift 25 gives "Y" then "Z" (95 section 11.4). -/
theorem test_encDoubleRev_z :
    (issued (holding 1 [0x5A]) 0x190C).out1 = [(0, 0x59)] ∧ (issued (holding 1 [0x5A]) 0x190C).out2 = [(0, 0x5A)] := by
  decide +kernel
theorem test_encDoubleVf_apple :
    (issued (holding 5 apple) 0x0314).out1 = Memory.writeString [] 0 dssoh ∧
    (issued (holding 5 apple) 0x0314).out2 = Memory.writeString [] 0 annju := by decide +kernel
theorem test_decDoubleRev_cnnry :
    (issued (holding 5 cnnry) 0x030D).outp = Memory.writeString [] 0 apple ∧
    (issued (holding 5 cnnry) 0x030D).out1 = [] := by decide +kernel
/-- "CNNRY" with shift 4 gives "bqqmf" (95 section 7.2). -/
theorem test_decDoubleRev_other_shift :
    (issued (holding 5 cnnry) 0x040D).outp = Memory.writeString [] 0 [0x62, 0x71, 0x71, 0x6D, 0x66] := by decide +kernel
theorem test_decDoubleVf_annju :
    (issued (holding 5 annju) 0x0315).outp = Memory.writeString [] 0 apple := by decide +kernel
/-- "CNNRY" as a vowel-first ciphertext gives "gppsy" (95 section 7.2). -/
theorem test_decDoubleVf_other_variant :
    (issued (holding 5 cnnry) 0x0315).outp = Memory.writeString [] 0 [0x67, 0x70, 0x70, 0x73, 0x79] := by decide +kernel
/-- Row 15 of the table for shift 3 is p S N, row 25 is z C D. -/
theorem test_mapTableRev_rows :
    (List.range 3).map (fun c => Memory.read (issued State.reset 0x030E).tbl (tblIndex 15 c)) =
      [some 0x70, some 0x53, some 0x4E] ∧
    (List.range 3).map (fun c => Memory.read (issued State.reset 0x030E).tbl (tblIndex 25 c)) =
      [some 0x7A, some 0x43, some 0x44] := by decide +kernel
/-- Rows 0, 4 and 25 of the vowel-first table for shift 3 are a D A, e H U, z C Z (95 section 11.4). -/
theorem test_mapTableVf_rows :
    (List.range 3).map (fun c => Memory.read (issued State.reset 0x0316).tbl (tblIndex 0 c)) =
      [some 0x61, some 0x44, some 0x41] ∧
    (List.range 3).map (fun c => Memory.read (issued State.reset 0x0316).tbl (tblIndex 4 c)) =
      [some 0x65, some 0x48, some 0x55] ∧
    (List.range 3).map (fun c => Memory.read (issued State.reset 0x0316).tbl (tblIndex 25 c)) =
      [some 0x7A, some 0x43, some 0x5A] := by decide +kernel
/-- 95 section 9.1: bad shift before bad character, illegal word before both, LEN > MAXLEN before the shift. -/
theorem test_error_priority :
    (issued (holding 8 apple123) 0x0302).err = 1 ∧ (issued (holding 8 apple123) 0x1A02).err = 2 ∧
    (issued (holding 8 apple123) 0x1A0A).err = 4 ∧ (issued { holding 5 apple with len := 6 } 0x1A02).err = 4 ∧
    (issued { holding 5 apple with len := 6 } 0x030E).err = 0 := by decide +kernel
/-- 95 section 9.4: a failing command leaves no output valid and changes neither LEN nor IN. -/
theorem test_error_entry :
    (issued (issued (holding 5 apple) 0x0302) 0x1A02).outv = 0 ∧
    (issued (issued (holding 5 apple) 0x0302) 0x1A02).status = 2 ∧
    (issued (issued (holding 5 apple) 0x0302) 0x1A02).cmd = 0x1A02 ∧
    (issued (issued (holding 5 apple) 0x0302) 0x1A02).len = 5 := by decide +kernel
theorem test_reset_issues_nothing : step State.reset = .next State.reset := rfl
theorem test_withFetchWord : issued State.reset 0x0316 = next (step (State.reset.withFetchWord 16 0x0316)) := rfl

/-! ### The host's other actions (R30, R43, R71) -/

theorem test_write_in : (acted State.reset (.writeIn 255 0x5A)).inBuf = [(255, 0x5A)] := by decide +kernel
theorem test_write_in_refused :
    (acted State.reset (.writeIn 256 0x5A)).inBuf = [] ∧ (acted State.reset (.writeIn 256 0x5A)).reply = .refused := by
  decide +kernel
theorem test_write_len_above_maxlen : (acted State.reset (.writeLen 300)).len = 300 := by decide +kernel
theorem test_write_result_ignored :
    (acted (issued State.reset 0x0001) (.writeResult .status 2)).status = 1 ∧
    (acted (issued State.reset 0x0001) (.writeResult .status 2)).reply = .done := by decide +kernel
theorem test_read_table :
    (acted (issued State.reset 0x0316) (.read (.res (.tbl 15 1)))).reply = .value 0x53 ∧
    (acted (issued State.reset 0x0316) (.read (.res (.tbl 15 3)))).reply = .refused := by decide +kernel
theorem test_read_output :
    (acted (issued (holding 5 apple) 0x030C) (.read (.res (.out2 3)))).reply = .value 0x52 := by decide +kernel
/-- An output without value reads as the free byte of that action, whatever was stored before. -/
theorem test_read_without_value :
    (acted (issued (issued (holding 5 apple) 0x0302) 0x1A02) (.read (.res (.out1 0)))).reply =
      .value (Config.freeByte 3 0).toNat := rfl
theorem test_reset_after_command : (acted (issued (holding 5 apple) 0x030C) .reset).inBuf = [] := by decide +kernel
theorem test_loadStr : loadStr [0x61, 0x62] = [.writeIn 0 0x61, .writeIn 1 0x62, .writeLen 2] := by decide
theorem test_copyBack :
    copyBack .out1 (issued (holding 1 [0x7A]) 0x0102) =
      [.read (.res .outlen), .read (.res (.out1 0)), .writeIn 0 0x41, .writeLen 1] := by decide +kernel
/-- OUT2 holds no value after ENC_CAESAR (action 1): the third action of the copy writes the free byte that the second,
action 3, read. -/
theorem test_copyBack_without_value (s : State) (h : s = issued (holding 1 [0x7A]) 0x0102) :
    (copyBack .out2 s)[2]? = some (.writeIn 0 (BitVec.ofNat 8 (Config.freeByte 3 0).toNat)) := by subst h; rfl

/-! ### Witnesses: a state and operands that meet the hypotheses of each statement -/

theorem validText {n : Nat} {msg : List Byte} (h : isValidText (readMessage (holding n msg)) = true) :
    TextValid (holding n msg) := (isValidText_readMessage _).1 h

theorem fits_five : MessageFits (holding 5 apple) := by unfold MessageFits; decide +kernel
theorem fits_not_six : ¬ MessageFits { holding 5 apple with len := 6 } := by unfold MessageFits; decide +kernel
theorem legal_ends : ShiftLegal 1 ∧ ShiftLegal 25 ∧ ¬ ShiftLegal 0 ∧ ¬ ShiftLegal 26 := by unfold ShiftLegal; decide
theorem valid_apple : TextValid (holding 5 apple) := validText (by decide +kernel)
theorem invalid_apple123 : ¬ TextValid (holding 8 apple123) :=
  fun h => absurd ((isValidText_readMessage _).2 h) (by decide +kernel)
theorem fits_apple123 : MessageFits (holding 8 apple123) := by unfold MessageFits; decide +kernel

theorem test_witness_DecodeOfEncodeIsTheCommand :
    (Instr.encCaesar (-128)).wf = true ∧ (Instr.encCaesar 127).wf = true := by decide
theorem test_witness_EncodeOfDecodeIsTheWord : decode 0xFF0D = .ok (.decDoubleRev (-1)) := by decide
theorem test_witness_IllegalWordsEndWithIllegalCommand :
    ({ State.reset with pending := [.issue 0x0000] } : State).pending = .issue 0x0000 :: [] ∧
    ∃ e, decode 0x0000 = .error e := ⟨rfl, .reservedOp, by decide⟩
theorem test_witness_CharacterClassesAndIndices :
    isUpper 0x41 = true ∧ isUpper 0x5A = true ∧ isLower 0x61 = true ∧ isLower 0x7A = true ∧ (25 : Index).toNat < 26 := by
  decide
theorem test_witness_EuclideanRemainder :
    emod26 (-25) = 1 ∧ emod26 (-1) = 25 ∧ emod26 0 = 0 ∧ emod26 25 = 25 ∧ emod26 26 = 0 ∧ emod26 50 = 24 := by decide
theorem test_witness_IndexShiftsAreInverse :
    (25 : Index).toNat < 26 ∧ 1 ≤ (1 : Index).toNat ∧ (1 : Index).toNat ≤ 25 ∧ (25 : Index).toNat ≤ 25 := by decide
theorem test_witness_StageOneLeftInverse : isValidText apple = true ∧ 1 ≤ (25 : Index).toNat ∧ (25 : Index).toNat ≤ 25 := by
  decide
theorem test_witness_BuiltTablesAreTheAlphabets :
    1 ≤ ({ State.reset with kLatch := 25 } : State).kLatch.toNat ∧
    ({ State.reset with kLatch := 25 } : State).kLatch.toNat ≤ 25 := by decide
theorem test_witness_BuiltTablesArePermutations :
    1 ≤ (1 : Index).toNat ∧ (1 : Index).toNat ≤ 25 ∧ 1 ≤ (25 : Index).toNat ∧ (25 : Index).toNat ≤ 25 ∧
    (1 : Index) ≠ 25 ∧ 25 < 26 := by decide
theorem test_witness_BuildMapsPairsOrFaults :
    (isPerm zeroTable && isPerm zeroTable) = false ∧ (isPerm romVf && isPerm (shiftedAlphabet 25)) = true := by
  decide +kernel
theorem test_witness_MapsAreMutuallyInverse :
    isPerm ({ State.reset with sTab := shiftedAlphabet 1, tTab := romVf } : State).sTab = true ∧
    isPerm ({ State.reset with sTab := shiftedAlphabet 1, tTab := romVf } : State).tTab = true ∧
    (25 : Index).toNat < 26 := by decide +kernel
theorem test_witness_MapsInClosedForm :
    1 ≤ (1 : Index).toNat ∧ (25 : Index).toNat ≤ 25 ∧ (0 : Index).toNat < 26 ∧ (25 : Index).toNat < 26 := by decide
theorem test_witness_IsValidAnswersForTheText :
    opField 0x0101 = 1 ∧ (0x0101 : Word) ≠ 0x0001 ∧
    ¬ MessageFits { holding 5 apple with len := 6 } ∧ (MessageFits (holding 5 apple) ∧ TextValid (holding 5 apple)) ∧
    (MessageFits (holding 8 apple123) ∧ ¬ TextValid (holding 8 apple123)) :=
  ⟨by decide, by decide, fits_not_six, ⟨fits_five, valid_apple⟩, fits_apple123, invalid_apple123⟩

/-- The four cases of a cipher command: LEN one above MAXLEN; a shift just out of range on either side; an invalid text;
all checks passed, at LEN = MAXLEN and at both ends of the shift's range. It serves `EncCaesarWritesStageOne`,
`DecCaesarWritesPlaintext`, `EncDoubleWritesBothStages` and `DecDoubleWritesPlaintext`. -/
theorem test_witness_cipher_commands :
    ¬ MessageFits { holding 5 apple with len := 6 } ∧
    (MessageFits (holding 5 apple) ∧ ¬ ShiftLegal 0 ∧ ¬ ShiftLegal 26) ∧
    (MessageFits (holding 8 apple123) ∧ ShiftLegal 1 ∧ ¬ TextValid (holding 8 apple123)) ∧
    (MessageFits (holding 5 apple) ∧ ShiftLegal 1 ∧ ShiftLegal 25 ∧ TextValid (holding 5 apple)) :=
  ⟨fits_not_six, ⟨fits_five, legal_ends.2.2.1, legal_ends.2.2.2⟩, ⟨fits_apple123, legal_ends.1, invalid_apple123⟩,
    fits_five, legal_ends.1, legal_ends.2.1, valid_apple⟩
theorem test_witness_TableFaultIsUnreachable :
    Variant.reversed ≠ .none ∧ Variant.vowelFirst ≠ .none ∧
    1 ≤ ({ State.reset with kLatch := 1 } : State).kLatch.toNat ∧
    ({ State.reset with kLatch := 25 } : State).kLatch.toNat ≤ 25 ∧
    State.reset.err ≠ ErrorName.code .tableFault := by decide
theorem test_witness_variant_fields :
    (opField 0x0304 = 4 ∧ varField 0x0304 = 0) ∧ (opField 0x031D = 5 ∧ varField 0x031D = 3) ∧
    (opField 0x031E = 6 ∧ varField 0x031E = 3) := by decide
theorem test_witness_double_variants (k : Int) :
    ((Instr.encDoubleRev k = .encDoubleRev k ∧ (fun a : Int => 25 + k - a) = fun a => 25 + k - a) ∧
      Instr.encDoubleVf k = .encDoubleVf k ∧ vowelFirst = vowelFirst) ∧
    ((Instr.decDoubleRev k = .decDoubleRev k ∧ (fun a : Int => 25 + k - a) = fun a => 25 + k - a) ∧
      Instr.decDoubleVf k = .decDoubleVf k ∧ vowelFirstInverse = vowelFirstInverse) ∧
    ((Instr.mapTableRev k = .mapTableRev k ∧ (fun a : Int => 25 + k - a) = fun a => 25 + k - a) ∧
      Instr.mapTableVf k = .mapTableVf k ∧ vowelFirst = vowelFirst) :=
  ⟨⟨⟨rfl, rfl⟩, rfl, rfl⟩, ⟨⟨rfl, rfl⟩, rfl, rfl⟩, ⟨rfl, rfl⟩, rfl, rfl⟩
theorem test_witness_MapTableWritesTheTriples :
    ¬ ShiftLegal 0 ∧ ¬ ShiftLegal 26 ∧ ShiftLegal 1 ∧ ShiftLegal 25 :=
  ⟨legal_ends.2.2.1, legal_ends.2.2.2, legal_ends.1, legal_ends.2.1⟩
theorem test_witness_StepRunsTheDecodedCommand :
    (State.reset.withFetchWord 16 0x1903).pending = .issue 0x1903 :: [] ∧ decode 0x1903 = .ok (.decCaesar 25) ∧
    State.reset.pending = [] := by decide
theorem test_witness_FirstFailingCheckIsReported :
    (∃ e, decode 0x1A0A = .error e) ∧
    (decode 0x1A02 = .ok (.encCaesar 26) ∧ readsMessage (.encCaesar 26) = true ∧
      ¬ MessageFits { holding 5 apple with len := 6 }) ∧
    (decode 0x1A02 = .ok (.encCaesar 26) ∧ MessageFits (holding 8 apple123) ∧
      shiftOf (.encCaesar 26) = some 26 ∧ ¬ ShiftLegal 26) ∧
    (decode 0x1902 = .ok (.encCaesar 25) ∧ MessageFits (holding 8 apple123) ∧
      shiftOf (.encCaesar 25) = some 25 ∧ ShiftLegal 25 ∧ isCipher (.encCaesar 25) = true ∧
      ¬ TextValid (holding 8 apple123)) ∧
    (decode 0x1902 = .ok (.encCaesar 25) ∧ MessageFits (holding 5 apple) ∧ ShiftLegal 25 ∧ TextValid (holding 5 apple)) :=
  ⟨⟨.variantNotAdmitted, by decide⟩, ⟨by decide, rfl, fits_not_six⟩, ⟨by decide, fits_apple123, rfl, legal_ends.2.2.2⟩,
    ⟨by decide, fits_apple123, rfl, legal_ends.2.1, rfl, invalid_apple123⟩, by decide, fits_five, legal_ends.2.1, valid_apple⟩
theorem test_witness_CommandsAreTotalAndMemoryless :
    ∀ p, p < (holding 5 apple).len → p < (holding 5 apple).maxLen →
      ∃ c, Memory.read (holding 5 apple).inBuf p = some c ∧
        Memory.read (issued (holding 5 apple) 0x1A02).inBuf p = some c := by
  have h : ∀ p, p < 5 → Memory.read (holding 5 apple).inBuf p = some (apple.getD p 0) ∧
      Memory.read (issued (holding 5 apple) 0x1A02).inBuf p = some (apple.getD p 0) := by decide +kernel
  exact fun p hp _ => ⟨_, h p hp⟩
theorem test_witness_ResultsDependOnInputsAlone :
    SameInputs (holding 5 apple) { holding 5 apple with status := 2, err := 1, kLatch := 9, out1 := [(0, 0x41)] } :=
  ⟨rfl, rfl, fun _ _ => rfl⟩
theorem test_witness_CaseOfInputIsIgnored :
    (holding 1 [0x61]).len = (holding 1 [0x41]).len ∧
    ∀ p, p < (holding 1 [0x61]).len →
      isLetter (inByte (holding 1 [0x61]) p) = true ∧ isLetter (inByte (holding 1 [0x41]) p) = true ∧
      idx (inByte (holding 1 [0x61]) p) = idx (inByte (holding 1 [0x41]) p) := by decide +kernel
/-- A message with a space, and its ciphertext's valid output. -/
theorem test_witness_OutputCaseIsFixed :
    (outvV1, (issued (holding 3 [0x61, 0x20, 0x62]) 0x0102).out1) ∈
      [(outvV1, (issued (holding 3 [0x61, 0x20, 0x62]) 0x0102).out1),
        (outvV2, (issued (holding 3 [0x61, 0x20, 0x62]) 0x0102).out2),
        (outvVP, (issued (holding 3 [0x61, 0x20, 0x62]) 0x0102).outp)] ∧
    (issued (holding 3 [0x61, 0x20, 0x62]) 0x0102).outputValid outvV1 = true ∧
    2 < (issued (holding 3 [0x61, 0x20, 0x62]) 0x0102).outlen := ⟨by simp, by decide +kernel, by decide +kernel⟩
theorem test_witness_LengthAndSpacesArePreserved :
    isCipher (.decDoubleVf 25) = true ∧ shiftOf (.decDoubleVf 25) = some 25 ∧ MessageFits (holding 5 apple) ∧
    ShiftLegal 25 ∧ TextValid (holding 5 apple) ∧
    (outvVP, (issued (holding 5 apple) 0x1915).outp) ∈ [(outvV1, (issued (holding 5 apple) 0x1915).out1),
      (outvV2, (issued (holding 5 apple) 0x1915).out2), (outvVP, (issued (holding 5 apple) 0x1915).outp)] ∧
    (issued (holding 5 apple) 0x1915).outputValid outvVP = true :=
  ⟨rfl, rfl, fits_five, legal_ends.2.1, valid_apple, by simp, by decide +kernel⟩
/-- Positions 1 and 2 of "apple" hold the same letter. -/
theorem test_witness_SubstitutionIsMonoalphabetic :
    isCipher (.encDoubleRev 1) = true ∧ shiftOf (.encDoubleRev 1) = some 1 ∧ ShiftLegal 1 ∧
    MessageFits (holding 5 apple) ∧ TextValid (holding 5 apple) ∧ 1 < (holding 5 apple).len ∧ 2 < (holding 5 apple).len ∧
    inByte (holding 5 apple) 1 = inByte (holding 5 apple) 2 :=
  ⟨rfl, rfl, legal_ends.1, fits_five, valid_apple, by decide +kernel, by decide +kernel, by decide +kernel⟩

/-- Encrypting "apple", a state whose message is the ciphertext, for the three ciphers: the plain Caesar cipher gives
"DSSOH", REVERSED "CNNRY", VOWEL_FIRST "ANNJU" (95 section 1). -/
theorem test_witness_DecryptionInvertsEncryption :
    MessageFits (holding 5 apple) ∧ ShiftLegal 3 ∧ TextValid (holding 5 apple) ∧
    ∀ vt ∈ [(Variant.none, dssoh), (Variant.reversed, cnnry), (Variant.vowelFirst, annju)],
      ∃ s', exec (encryptWith vt.1 3) (holding 5 apple) = .next s' ∧ (holding 5 vt.2).len = s'.outlen ∧
        ∀ p, p < 5 → Memory.read (cipherText vt.1 s') p = some (inByte (holding 5 vt.2) p) := by
  refine ⟨fits_five, by unfold ShiftLegal; decide, valid_apple, ?_⟩
  intro vt h
  simp only [List.mem_cons, List.not_mem_nil, or_false] at h
  rcases h with rfl | rfl | rfl <;> exact ⟨_, rfl, by decide +kernel, by decide +kernel⟩
theorem test_witness_fits_ciphertexts :
    MessageFits (holding 5 dssoh) ∧ MessageFits (holding 5 cnnry) ∧ MessageFits (holding 5 annju) := by
  unfold MessageFits; decide +kernel
theorem test_witness_VowelFirstDecryptsUnderAnyShift :
    MessageFits (holding 5 apple) ∧ ShiftLegal 1 ∧ ShiftLegal 25 ∧ TextValid (holding 5 apple) ∧
    ∃ s', exec (.encDoubleVf 1) (holding 5 apple) = .next s' ∧ MessageFits (holding 5 annju) ∧
      (holding 5 annju).len = s'.outlen ∧
      ∀ p, p < (holding 5 annju).len → Memory.read s'.out2 p = some (inByte (holding 5 annju) p) :=
  ⟨fits_five, legal_ends.1, legal_ends.2.1, valid_apple, _, rfl, test_witness_fits_ciphertexts.2.2, by decide +kernel,
    by decide +kernel⟩
theorem test_witness_ReversedCipherIsAnInvolution :
    MessageFits (holding 5 apple) ∧ ShiftLegal 3 ∧ TextValid (holding 5 apple) ∧
    ∃ s', exec (.encDoubleRev 3) (holding 5 apple) = .next s' ∧ MessageFits (holding 5 cnnry) ∧
      (holding 5 cnnry).len = s'.outlen ∧
      ∀ p, p < (holding 5 cnnry).len → Memory.read s'.out2 p = some (inByte (holding 5 cnnry) p) :=
  ⟨fits_five, by unfold ShiftLegal; decide, valid_apple, _, rfl, test_witness_fits_ciphertexts.2.1, by decide +kernel,
    by decide +kernel⟩
theorem test_witness_HostWritesOneMessageElement :
    ({ State.reset with pending := [.writeIn 255 0x5A] } : State).pending = .writeIn 255 0x5A :: [] ∧
    255 < State.reset.maxLen ∧ State.reset.maxLen ≤ 256 := by decide
theorem test_witness_HostWritesTheLength :
    ({ State.reset with pending := [.writeLen 511] } : State).pending = .writeLen 511 :: [] ∧
    511 < 2 ^ lenWidth ({ State.reset with pending := [.writeLen 511] } : State).maxLen := by decide
theorem test_witness_LengthWidthIsLeast : 1 ≤ 256 ∧ 256 < 2 ^ 9 := by decide
/-- A state in which OUT1 and OUT2 hold results, one for OUTP, one for RESULT, one for TBL, and a written IN. -/
theorem test_witness_HostReadsReturnTheValueAndChangeNothing :
    (∃ c, Memory.read (holding 5 apple).inBuf 4 = some c) ∧ 4 < (holding 5 apple).maxLen ∧
    (issued (holding 5 apple) 0x030C).outputValid outvV1 = true ∧
    (issued (holding 5 apple) 0x030C).outputValid outvV2 = true ∧ 4 < (issued (holding 5 apple) 0x030C).outlen ∧
    Memory.read (issued (holding 5 apple) 0x030C).out1 4 = some 0x48 ∧
    Memory.read (issued (holding 5 apple) 0x030C).out2 4 = some 0x59 ∧
    (issued (holding 5 apple) 0x0303).outputValid outvVP = true ∧ 4 < (issued (holding 5 apple) 0x0303).outlen ∧
    (∃ c, Memory.read (issued (holding 5 apple) 0x0303).outp 4 = some c) ∧
    (issued (holding 5 apple) 0x0001).outputValid outvVR = true ∧
    (issued (holding 5 apple) 0x030E).outputValid outvVT = true ∧
    Memory.read (issued (holding 5 apple) 0x030E).tbl (tblIndex 25 2) = some 0x44 :=
  ⟨⟨0x65, by decide +kernel⟩, by decide +kernel, by decide +kernel, by decide +kernel, by decide +kernel, by decide +kernel,
    by decide +kernel, by decide +kernel, by decide +kernel, ⟨0x62, by decide +kernel⟩, by decide +kernel, by decide +kernel,
    by decide +kernel⟩
theorem test_witness_ResultItemsAreReadOnly :
    ({ State.reset with pending := [.writeResult .err 7] } : State).pending = .writeResult .err 7 :: [] ∧
    ({ State.reset with pending := [.read (.res (.outp 256))] } : State).pending = .read (.res (.outp 256)) :: [] ∧
    State.reset.maxLen ≤ 256 ∧
    ({ State.reset with pending := [.read (.res (.tbl 26 0))] } : State).pending = .read (.res (.tbl 26 0)) :: [] ∧
    (26 ≤ 26 ∨ 3 ≤ 0) ∧
    ({ State.reset with pending := [.read (.res (.tbl 25 3))] } : State).pending = .read (.res (.tbl 25 3)) :: [] ∧
    (26 ≤ 25 ∨ 3 ≤ 3) ∧
    ({ State.reset with pending := [.writeResult (.out2 256) 0] } : State).pending = .writeResult (.out2 256) 0 :: [] ∧
    ({ State.reset with pending := [.writeResult (.tbl 26 2) 0] } : State).pending = .writeResult (.tbl 26 2) 0 :: [] := by
  decide
theorem test_witness_LoadStrStoresTheText :
    apple.length ≤ ({ State.resetOf 5 with pending := loadStr apple ++ [.issue 0x0302] } : State).maxLen ∧
    ({ State.resetOf 5 with pending := loadStr apple ++ [.issue 0x0302] } : State).pending =
      loadStr apple ++ [.issue 0x0302] := by decide
/-- After ENC_CAESAR OUT1 holds a result and OUT2 holds no value; both copies meet the hypotheses. -/
theorem test_witness_CopyBackMovesAnOutputIntoTheMessage (item : Nat → ResultItem)
    (h : item = ResultItem.out1 ∨ item = ResultItem.out2) :
    item ∈ [ResultItem.out1, ResultItem.out2, ResultItem.outp] ∧
    (issued (holding 5 apple) 0x0302).outlen = 5 ∧ (issued (holding 5 apple) 0x0302).maxLen = 5 ∧
    (issued (holding 5 apple) 0x0302).outputValid outvV2 = false ∧
    ∃ s, s = { issued (holding 5 apple) 0x0302 with pending := copyBack item (issued (holding 5 apple) 0x0302) } ∧
      s.pending = copyBack item s ++ [] := by
  refine ⟨by rcases h with rfl | rfl <;> simp, by decide +kernel, by decide +kernel, by decide +kernel, _, rfl, ?_⟩
  rw [List.append_nil]
  rcases h with rfl | rfl <;> rfl
theorem test_witness_ResultsStayUntilTheNextIssue :
    ({ State.reset with pending := [.writeLen 3] } : State).pending = .writeLen 3 :: [] ∧
    (∀ w, HostAction.writeLen 3 ≠ .issue w) ∧ HostAction.writeLen 3 ≠ .reset :=
  ⟨rfl, fun w => HostAction.noConfusion, by decide⟩
theorem test_witness_ResetActionRestoresTheResetState :
    ({ issued (holding 5 apple) 0x030C with pending := [.reset] } : State).pending = .reset :: [] := rfl

/-- A state that no reset leaves, in which every invariant is put to the test: the one after ENC_DOUBLE.REV 3 on "apple"
with MAXLEN = 5. Its own invariants, and the step from it that issues MAP_TABLE.REV 25, witness the four `StepKeeps…`
statements. -/
theorem test_witness_StepKeepsBuffersInForm :
    Memory.wf (issued (holding 5 apple) 0x030C).out2 = true ∧ (issued (holding 5 apple) 0x030C).out2.length = 5 ∧
    BuffersInForm (holding 5 apple) ∧ ∃ t, step (holding 5 apple) = .next t := by
  refine ⟨by decide +kernel, by decide +kernel, ⟨by decide +kernel, ⟨by decide +kernel, ?_⟩, ⟨rfl, fun _ _ => rfl⟩,
    ⟨rfl, fun _ _ => rfl⟩, ⟨rfl, fun _ _ => rfl⟩, rfl, fun _ _ => rfl⟩, _, rfl⟩
  intro a ha
  have : ¬ (0 = a ∨ 1 = a ∨ 2 = a ∨ 3 = a ∨ 4 = a) := by
    have : 5 ≤ a := ha
    omega
  simp only [not_or] at this
  obtain ⟨h0, h1, h2, h3, h4⟩ := this
  simp [holding, apple, Memory.writeString, Memory.write, Memory.read, h0, h1, h2, h3, h4]
theorem test_witness_StepKeepsResultCodesLegal :
    ResultCodesLegal (issued (holding 5 apple) 0x030C) ∧ ResultCodesLegal (issued (holding 8 apple123) 0x030C) ∧
    ∃ t, step (issued (holding 5 apple) 0x030C) = .next t :=
  ⟨by unfold ResultCodesLegal; decide +kernel, by unfold ResultCodesLegal; decide +kernel, _, rfl⟩
theorem test_witness_StepKeepsOutputsFilled :
    OutputsHoldResults (holding 5 apple) ∧ ∃ t, step { holding 5 apple with pending := [.issue 0x030C] } = .next t := by
  refine ⟨⟨?_, ?_, ?_, ?_⟩, _, rfl⟩ <;> (intro h; exact absurd h (by decide))
theorem test_witness_StepKeepsScratchIndicesLegal :
    ScratchIndicesLegal (issued (holding 5 apple) 0x030C) ∧ ∃ t, step (issued (holding 5 apple) 0x030C) = .next t := by
  refine ⟨⟨by decide +kernel, ?_, ?_, ?_, ?_⟩, _, rfl⟩ <;> (unfold IndexTable; decide +kernel)

end Sys2Proof.Tests
end

section
/-! PROOFS. Family 00_scope.md: the width of LEN (R5), and that results depend on a command's inputs alone (R7, R28).

The second is a relation between two runs of one command. A command sees of each character of its message only the three
things that `glyph` names, so the lemmas ask of two states only that they show it the same glyphs, which two states with
the same inputs do. Each shared operation of the commands (check, table build, store) then has one lemma: it takes alike
states to the same results. -/

namespace Sys2Proof.Machine

/-! ### The width of LEN -/

/-- LEN_W bits are few enough exactly when MAXLEN fits below the power of two (R5). -/
theorem lenWidth_le_iff {n w : Nat} (hn : 1 ≤ n) : lenWidth n ≤ w ↔ n < 2 ^ w :=
  Nat.log2_lt (Nat.one_le_iff_ne_zero.1 hn)

/-! ### What a command sees of the message -/

/-- All that a command sees of a character: whether it is a space, whether it is accepted, and its letter index (R67,
R80). -/
def glyph (c : Byte) : Bool × Bool × Index := (isSpace c, accepted c, idx c)

/-- The two states show a command the same message, glyph by glyph, under the same MAXLEN. -/
def SameGlyphs (s t : State) : Prop :=
  s.maxLen = t.maxLen ∧ (readMessage s).map glyph = (readMessage t).map glyph

theorem SameInputs.sameGlyphs {s t : State} (h : SameInputs s t) : SameGlyphs s t := by
  obtain ⟨hmax, hlen, hbytes⟩ := h
  exact ⟨hmax, congrArg (List.map glyph) (readMessage_congr hlen hbytes)⟩

/-- A function of a string that works glyph by glyph does not tell apart two strings of the same glyphs. -/
theorem map_eq_of_glyphs {α : Type} (f : Bool × Bool × Index → α) {a b : List Byte} (h : a.map glyph = b.map glyph) :
    a.map (fun c => f (glyph c)) = b.map (fun c => f (glyph c)) := by
  simpa [Function.comp_def] using congrArg (List.map f) h

theorem isValidText_eq_of_glyphs {a b : List Byte} (h : a.map glyph = b.map glyph) : isValidText a = isValidText b := by
  have hacc : a.map accepted = b.map accepted := map_eq_of_glyphs (fun g => g.2.1) h
  simpa [isValidText] using congrArg (fun l => l.all id) hacc

theorem encryptStage1_eq_of_glyphs {a b : List Byte} (h : a.map glyph = b.map glyph) (k : Index) :
    encryptStage1 a k = encryptStage1 b k :=
  map_eq_of_glyphs (fun g => if g.1 then spaceCode else upper (shiftForward g.2.2 k)) h

theorem decryptStage1_eq_of_glyphs {a b : List Byte} (h : a.map glyph = b.map glyph) (k : Index) :
    decryptStage1 a k = decryptStage1 b k :=
  map_eq_of_glyphs (fun g => if g.1 then spaceCode else lower (shiftBackward g.2.2 k)) h

theorem applyBackward_eq_of_glyphs {a b : List Byte} (h : a.map glyph = b.map glyph) (map : Table) :
    applyBackward map a = applyBackward map b :=
  map_eq_of_glyphs (fun g => if g.1 then spaceCode else upper (tableGet map g.2.2)) h

theorem len_eq_of_glyphs {s t : State} (h : (readMessage s).map glyph = (readMessage t).map glyph) : s.len = t.len := by
  simpa using congrArg List.length h

theorem SameGlyphs.messageFits_iff {s t : State} (h : SameGlyphs s t) : MessageFits s ↔ MessageFits t := by
  obtain ⟨hmax, hglyphs⟩ := h
  rw [MessageFits, MessageFits, hmax, len_eq_of_glyphs hglyphs]

theorem textValid_iff_of_glyphs {s t : State} (h : (readMessage s).map glyph = (readMessage t).map glyph) :
    TextValid s ↔ TextValid t := by
  rw [← isValidText_readMessage, ← isValidText_readMessage, isValidText_eq_of_glyphs h]

/-! ### The two ends of a command -/

/-- No output holds a value: so it is from the issue of a command to its end (R130). -/
def OutputsCleared (s : State) : Prop := s.outv = 0 ∧ s.outlen = 0

theorem outputsCleared_clearOutputs (s : State) : OutputsCleared (clearOutputs s) := ⟨rfl, rfl⟩

/-- The same error gives the same results: no output holds a value. -/
theorem sameResults_raise (e : ErrorName) {s t : State} (hs : OutputsCleared s) (ht : OutputsCleared t) :
    SameResults (raise e s) (raise e t) := by
  obtain ⟨hsv, hsl⟩ := hs
  obtain ⟨htv, htl⟩ := ht
  simp [SameResults, State.outputValid, hsv, hsl, htv, htl, outvV1, outvV2, outvVP, outvVR, outvVT]

/-- Two completed commands have the same results when the outputs that their common mask declares valid agree. Of an
output that a given mask leaves out nothing need be shown. -/
theorem sameResults_complete {mask : BitVec 5} {n n' : Nat} {s t : State} (hn : n = n')
    (hout1 : (mask &&& outvV1 == outvV1) = true → ∀ p, p < n → Memory.read s.out1 p = Memory.read t.out1 p :=
      by exact fun hm => absurd hm (by decide))
    (hout2 : (mask &&& outvV2 == outvV2) = true → ∀ p, p < n → Memory.read s.out2 p = Memory.read t.out2 p :=
      by exact fun hm => absurd hm (by decide))
    (houtp : (mask &&& outvVP == outvVP) = true → ∀ p, p < n → Memory.read s.outp p = Memory.read t.outp p :=
      by exact fun hm => absurd hm (by decide))
    (hresult : (mask &&& outvVR == outvVR) = true → s.result = t.result := by exact fun hm => absurd hm (by decide))
    (htbl : (mask &&& outvVT == outvVT) = true → ∀ a, a < 78 → Memory.read s.tbl a = Memory.read t.tbl a :=
      by exact fun hm => absurd hm (by decide)) :
    SameResults (complete mask n s) (complete mask n' t) :=
  ⟨rfl, rfl, rfl, hn, hout1, hout2, houtp, hresult, htbl⟩

/-- Where a string is stored, what the buffer held before does not show. -/
theorem read_writeString_eq {a b : List Byte} (h : a = b) (m m' : Memory) {p : Nat} (hp : p < a.length) :
    Memory.read (Memory.writeString m 0 a) p = Memory.read (Memory.writeString m' 0 b) p := by
  subst h
  have hin : 0 ≤ p ∧ p < 0 + a.length := by omega
  rw [read_writeString, read_writeString, dif_pos hin, dif_pos hin]

/-! ### The checks and the table build, on two states -/

theorem messageCommand_sameResults {rest : State → State} {s t : State} (h : SameGlyphs s t)
    (hrest : SameResults (rest (clearOutputs s)) (rest (clearOutputs t))) :
    SameResults (messageCommand rest s) (messageCommand rest t) := by
  have hfits := h.messageFits_iff
  rcases messageCommand_cases rest s with ⟨hs, es⟩ | ⟨hs, es⟩ <;>
    rcases messageCommand_cases rest t with ⟨ht, et⟩ | ⟨ht, et⟩
  · rw [es, et]
    exact sameResults_raise _ (outputsCleared_clearOutputs s) (outputsCleared_clearOutputs t)
  · exact absurd (hfits.2 ht) hs
  · exact absurd (hfits.1 hs) ht
  · rw [es, et]
    exact hrest

theorem checkShift_sameResults {k : Int} {rest : State → State} {s t : State}
    (hs : OutputsCleared s) (ht : OutputsCleared t) (hrest : SameResults (rest s) (rest t)) :
    SameResults (checkShift k rest s) (checkShift k rest t) := by
  unfold checkShift
  split
  · exact hrest
  · exact sameResults_raise _ hs ht

theorem checkText_sameResults {rest : State → State} {s t : State}
    (h : (readMessage s).map glyph = (readMessage t).map glyph) (hs : OutputsCleared s) (ht : OutputsCleared t)
    (hrest : SameResults (rest { s with pos := s.len }) (rest { t with pos := t.len })) :
    SameResults (checkText rest s) (checkText rest t) := by
  have hvalid := textValid_iff_of_glyphs h
  rcases checkText_cases rest s with ⟨hvs, es⟩ | ⟨hvs, es⟩ <;>
    rcases checkText_cases rest t with ⟨hvt, et⟩ | ⟨hvt, et⟩
  · rw [es, et]
    exact sameResults_raise _ hs ht
  · exact absurd (hvalid.2 hvt) hvs
  · exact absurd (hvalid.1 hvs) hvt
  · rw [es, et]
    exact hrest

/-- A cipher command gives the same results when its body does (R130): each of its checks sees the glyphs only. -/
theorem cipherCommand_sameResults {k : Int} {body : State → State} {s t : State} (h : SameGlyphs s t)
    (hbody : SameResults (body (bodyState k s)) (body (bodyState k t))) :
    SameResults (cipherCommand k body s) (cipherCommand k body t) := by
  have hs := outputsCleared_clearOutputs s
  have ht := outputsCleared_clearOutputs t
  exact messageCommand_sameResults h (checkShift_sameResults hs ht (checkText_sameResults h.2 hs ht hbody))

/-- T depends on S alone, in the variants that build it (R101). -/
theorem buildT_tTab_eq {var : Variant} (hvar : var ≠ .none) {s t : State} (h : s.sTab = t.sTab) :
    (buildT var s).tTab = (buildT var t).tTab := by
  cases var with
  | none => exact absurd rfl hvar
  | reversed => simp [h]
  | vowelFirst => rfl

theorem buildMaps_sameResults {rest : State → State} {s t : State} (hS : s.sTab = t.sTab) (hT : s.tTab = t.tTab)
    (hs : OutputsCleared s) (ht : OutputsCleared t)
    (hrest : SameResults (rest (writeMaps s)) (rest (writeMaps t))) :
    SameResults (buildMaps rest s) (buildMaps rest t) := by
  unfold buildMaps
  rw [hS, hT]
  split
  · exact hrest
  · exact sameResults_raise _ hs ht

/-! ### The bodies, on two states -/

/-- What the bodies of the cipher commands find alike in two states: the glyphs and the latch, all outputs cleared. -/
structure SameBodyInputs (s t : State) : Prop where
  glyphs : (readMessage s).map glyph = (readMessage t).map glyph
  latch : s.kLatch = t.kLatch
  left_cleared : OutputsCleared s
  right_cleared : OutputsCleared t

theorem sameBodyInputs_bodyState (k : Int) {s t : State} (h : SameGlyphs s t) :
    SameBodyInputs (bodyState k s) (bodyState k t) where
  glyphs := by simpa using h.2
  latch := rfl
  left_cleared := ⟨rfl, rfl⟩
  right_cleared := ⟨rfl, rfl⟩

theorem isValidBody_sameResults {s t : State} (h : (readMessage s).map glyph = (readMessage t).map glyph) :
    SameResults (isValidBody s) (isValidBody t) := by
  refine sameResults_complete rfl (hresult := fun _ => ?_)
  simp [isValidText_eq_of_glyphs h]

theorem encCaesarBody_sameResults {s t : State} (h : SameBodyInputs s t) :
    SameResults (encCaesarBody s) (encCaesarBody t) := by
  have hct : encryptStage1 (readMessage s) s.kLatch = encryptStage1 (readMessage t) t.kLatch := by
    rw [h.latch, encryptStage1_eq_of_glyphs h.glyphs]
  exact sameResults_complete (len_eq_of_glyphs h.glyphs)
    (hout1 := fun _ p hp => read_writeString_eq hct _ _ (by simpa using hp))

theorem decCaesarBody_sameResults {s t : State} (h : SameBodyInputs s t) :
    SameResults (decCaesarBody s) (decCaesarBody t) := by
  have hpt : decryptStage1 (readMessage s) s.kLatch = decryptStage1 (readMessage t) t.kLatch := by
    rw [h.latch, decryptStage1_eq_of_glyphs h.glyphs]
  exact sameResults_complete (len_eq_of_glyphs h.glyphs)
    (houtp := fun _ p hp => read_writeString_eq hpt _ _ (by simpa using hp))

theorem encDoubleStrings_sameResults {s t : State} (h : SameBodyInputs s t) (hfwd : s.fwd = t.fwd) :
    SameResults (encDoubleStrings s) (encDoubleStrings t) := by
  have hct1 : encryptStage1 (readMessage s) s.kLatch = encryptStage1 (readMessage t) t.kLatch := by
    rw [h.latch, encryptStage1_eq_of_glyphs h.glyphs]
  have hct2 : applyForward s.fwd (encryptStage1 (readMessage s) s.kLatch) =
      applyForward t.fwd (encryptStage1 (readMessage t) t.kLatch) := by rw [hfwd, hct1]
  exact sameResults_complete (len_eq_of_glyphs h.glyphs)
    (hout1 := fun _ p hp => read_writeString_eq hct1 _ _ (by simpa using hp))
    (hout2 := fun _ p hp => read_writeString_eq hct2 _ _ (by simpa using hp))

theorem decDoubleStrings_sameResults {s t : State} (h : SameBodyInputs s t) (hbwd : s.bwd = t.bwd) :
    SameResults (decDoubleStrings s) (decDoubleStrings t) := by
  have hpt : decryptStage1 (applyBackward s.bwd (readMessage s)) s.kLatch =
      decryptStage1 (applyBackward t.bwd (readMessage t)) t.kLatch := by
    rw [h.latch, hbwd, applyBackward_eq_of_glyphs h.glyphs]
  exact sameResults_complete (len_eq_of_glyphs h.glyphs)
    (houtp := fun _ p hp => read_writeString_eq hpt _ _ (by simpa using hp))

/-- The tables and maps of a double cipher, built from alike latches, are equal; the inputs of its strings stay alike. -/
theorem doubleBody_sameResults {var : Variant} (hvar : var ≠ .none) {strings : State → State} {s t : State}
    (h : SameBodyInputs s t)
    (hstrings : ∀ {u v : State}, SameBodyInputs u v → u.fwd = v.fwd → u.bwd = v.bwd →
      SameResults (strings u) (strings v)) :
    SameResults (buildMaps strings (buildT var (buildS s))) (buildMaps strings (buildT var (buildS t))) := by
  have hS : (buildS s).sTab = (buildS t).sTab := by simp [h.latch]
  have hT : (buildT var (buildS s)).tTab = (buildT var (buildS t)).tTab := buildT_tTab_eq hvar hS
  have hcleared : ∀ {u : State}, OutputsCleared u → OutputsCleared (buildT var (buildS u)) := by
    simp [OutputsCleared]
  refine buildMaps_sameResults (by simpa using hS) hT (hcleared h.left_cleared) (hcleared h.right_cleared)
    (hstrings ⟨?_, ?_, hcleared h.left_cleared, hcleared h.right_cleared⟩ ?_ ?_)
  · simpa using h.glyphs
  · simpa using h.latch
  · simp [hT, h.latch]
  · simp [hT, h.latch]

theorem encDoubleBody_sameResults {var : Variant} (hvar : var ≠ .none) {s t : State} (h : SameBodyInputs s t) :
    SameResults (encDoubleBody var s) (encDoubleBody var t) :=
  doubleBody_sameResults hvar h fun hin hfwd _ => encDoubleStrings_sameResults hin hfwd

theorem decDoubleBody_sameResults {var : Variant} (hvar : var ≠ .none) {s t : State} (h : SameBodyInputs s t) :
    SameResults (decDoubleBody var s) (decDoubleBody var t) :=
  doubleBody_sameResults hvar h fun hin _ hbwd => decDoubleStrings_sameResults hin hbwd

theorem mapTableRows_sameResults {s t : State} (hS : s.sTab = t.sTab) (hT : s.tTab = t.tTab) :
    SameResults (mapTableRows s) (mapTableRows t) := by
  have hcodes : tableCodes s.sTab s.tTab = tableCodes t.sTab t.tTab := by rw [hS, hT]
  have htbl (p : Nat) (hp : p < 78) : Memory.read (storeTbl (tableCodes s.sTab s.tTab) s).tbl p =
      Memory.read (storeTbl (tableCodes t.sTab t.tTab) t).tbl p := by
    simp only [storeTbl_tbl]
    exact read_writeString_eq hcodes _ _ (by simpa using hp)
  exact sameResults_complete rfl (htbl := fun _ => htbl)

/-- MAP_TABLE reads neither IN nor LEN (R136): its results depend on its shift alone, whatever the two states are. -/
theorem mapTableCommand_sameResults (k : Int) {var : Variant} (hvar : var ≠ .none) (s t : State) :
    SameResults (mapTableCommand k var s) (mapTableCommand k var t) := by
  have hS : (buildS (latchShift k (clearOutputs s))).sTab = (buildS (latchShift k (clearOutputs t))).sTab := rfl
  exact checkShift_sameResults (outputsCleared_clearOutputs s) (outputsCleared_clearOutputs t)
    (mapTableRows_sameResults (by simp) (buildT_tTab_eq hvar hS))

/-! ### Every command, on two states -/

/-- Two states that show a command the same glyphs get the same results from it. -/
theorem exec_sameResults (i : Instr) {s t : State} (h : SameGlyphs s t) :
    ∃ s' t', exec i s = .next s' ∧ exec i t = .next t' ∧ SameResults s' t' := by
  have hbody (k : Int) := sameBodyInputs_bodyState k h
  cases i with
  | isValid => exact ⟨_, _, rfl, rfl, messageCommand_sameResults h (isValidBody_sameResults h.2)⟩
  | encCaesar k => exact ⟨_, _, rfl, rfl, cipherCommand_sameResults h (encCaesarBody_sameResults (hbody k))⟩
  | decCaesar k => exact ⟨_, _, rfl, rfl, cipherCommand_sameResults h (decCaesarBody_sameResults (hbody k))⟩
  | encDoubleRev k =>
    exact ⟨_, _, rfl, rfl, cipherCommand_sameResults h (encDoubleBody_sameResults (var := .reversed) nofun (hbody k))⟩
  | encDoubleVf k =>
    exact ⟨_, _, rfl, rfl, cipherCommand_sameResults h (encDoubleBody_sameResults (var := .vowelFirst) nofun (hbody k))⟩
  | decDoubleRev k =>
    exact ⟨_, _, rfl, rfl, cipherCommand_sameResults h (decDoubleBody_sameResults (var := .reversed) nofun (hbody k))⟩
  | decDoubleVf k =>
    exact ⟨_, _, rfl, rfl, cipherCommand_sameResults h (decDoubleBody_sameResults (var := .vowelFirst) nofun (hbody k))⟩
  | mapTableRev k => exact ⟨_, _, rfl, rfl, mapTableCommand_sameResults (var := .reversed) k nofun s t⟩
  | mapTableVf k => exact ⟨_, _, rfl, rfl, mapTableCommand_sameResults (var := .vowelFirst) k nofun s t⟩

/-! ### The statements -/

/-- Settles O28: the same inputs show a command the same glyphs. -/
theorem resultsDependOnInputsAlone : Obligations.ResultsDependOnInputsAlone :=
  fun i _ _ h => exec_sameResults i h.sameGlyphs

/-- Settles O40: both halves are the two directions of `lenWidth_le_iff`. -/
theorem lengthWidthIsLeast : Obligations.LengthWidthIsLeast :=
  fun _ hn => ⟨(lenWidth_le_iff hn).1 le_rfl, fun _ => (lenWidth_le_iff hn).2⟩

end Sys2Proof.Machine
end

section
/-! PROOFS. Family 10_state.md: the reset state (R31), the host's writes of LEN and of the result items (R14, R30), and
that every step keeps the result registers legal and the valid outputs filled (R16 to R22, R150).

The last two go together. A command ends in one of two ways, by `raise` or by `complete`, and either way it leaves the
results legal WHATEVER THEY WERE BEFORE (`exec_resultsLegal`); RESET does so too, and no other step touches them
(`step_results`). So each invariant is kept because a step either leaves it alone or establishes it afresh. -/

namespace Sys2Proof.Machine

/-! ### What the stored characters are (R67, R123) -/

theorem isUpper_upper : ∀ i : Index, i.toNat < 26 → isUpper (upper i) = true := by decide +kernel

theorem isLower_lower : ∀ i : Index, i.toNat < 26 → isLower (lower i) = true := by decide +kernel

/-- The stage-1 ciphertext is of upper-case letters and spaces, whatever the message is (R93). -/
theorem upper_or_space_of_mem_encryptStage1 {str : List Byte} {k : Index} {c : Byte} (h : c ∈ encryptStage1 str k) :
    c = 0x20 ∨ isUpper c = true := by
  obtain ⟨b, -, rfl⟩ := List.mem_map.1 h
  split
  · exact .inl rfl
  · exact .inr (isUpper_upper _ (shift_lt _ _).1)

/-- The recovered plaintext is of lower-case letters and spaces, whatever the ciphertext is (R94). -/
theorem lower_or_space_of_mem_decryptStage1 {str : List Byte} {k : Index} {c : Byte} (h : c ∈ decryptStage1 str k) :
    c = 0x20 ∨ isLower c = true := by
  obtain ⟨b, -, rfl⟩ := List.mem_map.1 h
  split
  · exact .inl rfl
  · exact .inr (isLower_lower _ (shift_lt _ _).2)

/-- What a map of letter indices gives is of upper-case letters and spaces (R120). -/
theorem upper_or_space_of_mem_applyForward {fwd : Table} (hfwd : IndexTable fwd) {str : List Byte} {c : Byte}
    (h : c ∈ applyForward fwd str) : c = 0x20 ∨ isUpper c = true := by
  obtain ⟨b, -, rfl⟩ := List.mem_map.1 h
  split
  · exact .inl rfl
  · exact .inr (isUpper_upper _ (tableGet_lt hfwd _))

/-! ### What a stored string leaves in a buffer -/

/-- A string written from element 0 up, read back. -/
theorem read_writeString_zero {str : List Byte} (m : Memory) {p : Nat} (hp : p < str.length) :
    Memory.read (Memory.writeString m 0 str) p = str[p]? := by
  rw [read_writeString, dif_pos (by omega), List.getElem?_eq_getElem hp]
  rfl

/-- Every element that a string was written to holds a character of it, so what all of them are, it is. -/
theorem holds_writeString {P : Byte → Prop} {str : List Byte} (h : ∀ c ∈ str, P c) (m : Memory) {p : Nat}
    (hp : p < str.length) : ∃ c, Memory.read (Memory.writeString m 0 str) p = some c ∧ P c :=
  ⟨str[p], by rw [read_writeString_zero m hp, List.getElem?_eq_getElem hp], h _ (List.getElem_mem hp)⟩

/-- Blocks of one length `d`, laid end to end: element `c` of block `i`. -/
theorem flatMap_range_getElem? {α : Type} {f : Nat → List α} {d : Nat} (hf : ∀ i, (f i).length = d) {n i c : Nat}
    (hi : i < n) (hc : c < d) : ((List.range n).flatMap f)[d * i + c]? = (f i)[c]? := by
  induction n with
  | zero => omega
  | succ n ih =>
    have hlen : ((List.range n).flatMap f).length = d * n := by simp [List.length_flatMap, hf, Nat.mul_comm]
    rw [List.range_succ, List.flatMap_append, List.flatMap_singleton]
    rcases Nat.lt_succ_iff_lt_or_eq.1 hi with hlt | rfl
    · have hin : d * i + c < d * n :=
        calc d * i + c < d * (i + 1) := by rw [Nat.mul_succ]; omega
          _ ≤ d * n := Nat.mul_le_mul_left d hlt
      rw [List.getElem?_append_left (by omega), ih hlt]
    · rw [List.getElem?_append_right (by omega), hlen, Nat.add_sub_cancel_left]

/-- Row `i` of TBL after the 78 elements are stored (R22, R136). -/
theorem tbl_row_storeTbl (S T : Table) (s : State) {i : Nat} (hi : i < 26) :
    Memory.read (storeTbl (tableCodes S T) s).tbl (tblIndex i 0) = some (lower (BitVec.ofNat 5 i)) ∧
    Memory.read (storeTbl (tableCodes S T) s).tbl (tblIndex i 1) = some (upper (tableGet S (BitVec.ofNat 5 i))) ∧
    Memory.read (storeTbl (tableCodes S T) s).tbl (tblIndex i 2) = some (upper (tableGet T (BitVec.ofNat 5 i))) := by
  have row (c : Nat) (hc : c < 3) : Memory.read (storeTbl (tableCodes S T) s).tbl (tblIndex i c) =
      [lower (BitVec.ofNat 5 i), upper (tableGet S (BitVec.ofNat 5 i)), upper (tableGet T (BitVec.ofNat 5 i))][c]? := by
    rw [storeTbl_tbl, read_writeString_zero _ (by rw [tableCodes_length, tblIndex]; omega)]
    exact flatMap_range_getElem? (d := 3) (fun _ => rfl) hi hc
  exact ⟨row 0 (by omega), row 1 (by omega), row 2 (by omega)⟩

/-! ### The tables a command builds (R106, R110) -/

theorem indexTable_iff_forall_mem {t : Table} : IndexTable t ↔ ∀ x ∈ t.toList, x.toNat < 26 := by
  constructor
  · intro h x hx
    obtain ⟨i, hi, rfl⟩ := List.getElem_of_mem hx
    exact h ⟨i, by simpa using hi⟩
  · intro h i
    exact h _ (by simp)

/-- A map into a table of letter indices is one. -/
theorem indexTable_pairedMap {src dst : Table} (h : IndexTable dst) : IndexTable (pairedMap src dst) := by
  rw [indexTable_iff_forall_mem] at h ⊢
  intro x hx
  rcases writePairs_mem (src.toList.zip dst.toList) (List.replicate 26 0) x hx with h0 | ⟨⟨a, b⟩, hab, rfl⟩
  · rw [List.eq_of_mem_replicate h0]
    decide
  · exact h b (List.of_mem_zip hab).2

/-- S is a permutation whatever the latch holds, and so is its reverse (R106). -/
theorem isPerm_shiftedAlphabet : ∀ k : Index,
    isPerm (shiftedAlphabet k) = true ∧ isPerm (reversedAlphabet (shiftedAlphabet k)) = true := by decide +kernel

theorem isPerm_romVf : isPerm romVf = true := by decide +kernel

/-- The tables that a variant builds pass the check of R111. -/
theorem isPerm_builtTables {var : Variant} (hvar : var ≠ .none) (s : State) :
    (isPerm (buildT var (buildS s)).sTab && isPerm (buildT var (buildS s)).tTab) = true := by
  obtain ⟨hS, hrev⟩ := isPerm_shiftedAlphabet s.kLatch
  cases var with
  | none => exact absurd rfl hvar
  | reversed => simp [hS, hrev]
  | vowelFirst => simp [hS, isPerm_romVf]

/-- The table T that a variant builds is of letter indices. -/
theorem indexTable_builtT {var : Variant} (hvar : var ≠ .none) (s : State) :
    IndexTable (buildT var (buildS s)).tTab := by
  cases var with
  | none => exact absurd rfl hvar
  | reversed => exact indexTable_reversedAlphabet (indexTable_shiftedAlphabet s.kLatch)
  | vowelFirst => exact indexTable_romVf

/-! ### The two ends of a command, and what they leave -/

/-- The two invariants of the results together: the registers hold values that the engine writes, and every valid output
is filled. -/
structure ResultsLegal (s : State) : Prop where
  codes : ResultCodesLegal s
  outputs : OutputsHoldResults s

/-- Where no output is valid, every valid output is filled. -/
theorem outputsHoldResults_of_outv_zero {s : State} (h : s.outv = 0) : OutputsHoldResults s := by
  simp [OutputsHoldResults, State.outputValid, h, outvV1, outvV2, outvVP, outvVT]

/-- An error that the engine does report leaves the results legal, when the outputs were cleared before it (R159). -/
theorem resultsLegal_raise {e : ErrorName} (he : e ∈ [.illegalCommand, .shiftOutOfRange, .invalidCharacter]) {s : State}
    (hs : OutputsCleared s) : ResultsLegal (raise e s) := by
  obtain ⟨hv, hl⟩ := hs
  have hcode : e.code = 4 ∨ e.code = 2 ∨ e.code = 1 := by
    simp only [List.mem_cons, List.not_mem_nil, or_false] at he
    rcases he with rfl | rfl | rfl <;> decide
  refine ⟨?_, outputsHoldResults_of_outv_zero hv⟩
  rcases hcode with h | h | h <;> simp [ResultCodesLegal, statusError, statusDone, hv, hl, h]

/-- A command that completes leaves the results legal when its mask is one of R18, its OUTLEN is within MAXLEN, and the
outputs that the mask declares valid are filled. Of an output that a given mask leaves out nothing need be shown. -/
theorem resultsLegal_complete {mask : BitVec 5} {n : Nat} {s : State} (hn : n ≤ s.maxLen)
    (hmask : mask = 0x00 ∨ mask = 0x01 ∨ mask = 0x03 ∨ mask = 0x04 ∨ mask = 0x08 ∨ mask = 0x10 := by decide)
    (hout1 : (mask &&& outvV1 == outvV1) = true → ∀ p, p < n → HoldsUpperOrSpace s.out1 p :=
      by exact fun hm => absurd hm (by decide))
    (hout2 : (mask &&& outvV2 == outvV2) = true → ∀ p, p < n → HoldsUpperOrSpace s.out2 p :=
      by exact fun hm => absurd hm (by decide))
    (houtp : (mask &&& outvVP == outvVP) = true → ∀ p, p < n → HoldsLowerOrSpace s.outp p :=
      by exact fun hm => absurd hm (by decide))
    (htbl : (mask &&& outvVT == outvVT) = true → ∀ i, i < 26 →
        Memory.read s.tbl (tblIndex i 0) = some (lower (BitVec.ofNat 5 i)) ∧
        HoldsUpper s.tbl (tblIndex i 1) ∧ HoldsUpper s.tbl (tblIndex i 2) :=
      by exact fun hm => absurd hm (by decide)) :
    ResultsLegal (complete mask n s) where
  codes := ⟨show statusDone ≠ 3 by decide, .inl rfl, show statusDone = statusError ↔ errNone ≠ 0 by decide, hmask,
    fun h => absurd rfl h, hn⟩
  outputs := ⟨hout1, hout2, houtp, htbl⟩

/-! ### The checks and the table build -/

theorem messageCommand_resultsLegal {rest : State → State} {s : State}
    (hrest : MessageFits s → ResultsLegal (rest (clearOutputs s))) : ResultsLegal (messageCommand rest s) := by
  rcases messageCommand_cases rest s with ⟨-, e⟩ | ⟨hfits, e⟩
  · rw [e]
    exact resultsLegal_raise (by simp) (outputsCleared_clearOutputs s)
  · rw [e]
    exact hrest hfits

/-- The results of a cipher command are legal when its body leaves them so; the body runs with LEN within MAXLEN. -/
theorem cipherCommand_resultsLegal {k : Int} {body : State → State} {s : State}
    (hbody : MessageFits (bodyState k s) → ResultsLegal (body (bodyState k s))) :
    ResultsLegal (cipherCommand k body s) := by
  have hcleared := outputsCleared_clearOutputs s
  rcases cipherCommand_cases k body s with ⟨-, e⟩ | ⟨-, -, e⟩ | ⟨-, -, -, e⟩ | ⟨hfits, -, -, e⟩
  · rw [e]
    exact resultsLegal_raise (by simp) hcleared
  · rw [e]
    exact resultsLegal_raise (by simp) hcleared
  · rw [e]
    exact resultsLegal_raise (by simp) hcleared
  · rw [e]
    exact hbody hfits

/-! ### The bodies -/

theorem isValidBody_resultsLegal (s : State) : ResultsLegal (isValidBody s) :=
  resultsLegal_complete (Nat.zero_le _)

theorem encCaesarBody_resultsLegal {s : State} (hfits : MessageFits s) : ResultsLegal (encCaesarBody s) :=
  resultsLegal_complete hfits
    (hout1 := fun _ _ hp => holds_writeString (fun _ => upper_or_space_of_mem_encryptStage1) _ (by simpa using hp))

theorem decCaesarBody_resultsLegal {s : State} (hfits : MessageFits s) : ResultsLegal (decCaesarBody s) :=
  resultsLegal_complete hfits
    (houtp := fun _ _ hp => holds_writeString (fun _ => lower_or_space_of_mem_decryptStage1) _ (by simpa using hp))

theorem encDoubleStrings_resultsLegal {s : State} (hfits : MessageFits s) (hfwd : IndexTable s.fwd) :
    ResultsLegal (encDoubleStrings s) :=
  resultsLegal_complete hfits
    (hout1 := fun _ _ hp => holds_writeString (fun _ => upper_or_space_of_mem_encryptStage1) _ (by simpa using hp))
    (hout2 := fun _ _ hp => holds_writeString (fun _ => upper_or_space_of_mem_applyForward hfwd) _ (by simpa using hp))

theorem decDoubleStrings_resultsLegal {s : State} (hfits : MessageFits s) : ResultsLegal (decDoubleStrings s) :=
  resultsLegal_complete hfits
    (houtp := fun _ _ hp => holds_writeString (fun _ => lower_or_space_of_mem_decryptStage1) _ (by simpa using hp))

/-- The built tables pass the check of R111, so the strings follow, with both maps in place: no TABLE_FAULT (R113). -/
theorem buildMaps_builtTables {var : Variant} (hvar : var ≠ .none) (strings : State → State) (s : State) :
    buildMaps strings (buildT var (buildS s)) = strings (writeMaps (buildT var (buildS s))) :=
  if_pos (isPerm_builtTables hvar s)

theorem encDoubleBody_resultsLegal {var : Variant} (hvar : var ≠ .none) {s : State} (hfits : MessageFits s) :
    ResultsLegal (encDoubleBody var s) := by
  rw [encDoubleBody, buildMaps_builtTables hvar]
  exact encDoubleStrings_resultsLegal (by simpa [MessageFits] using hfits)
    (indexTable_pairedMap (indexTable_builtT hvar s))

theorem decDoubleBody_resultsLegal {var : Variant} (hvar : var ≠ .none) {s : State} (hfits : MessageFits s) :
    ResultsLegal (decDoubleBody var s) := by
  rw [decDoubleBody, buildMaps_builtTables hvar]
  exact decDoubleStrings_resultsLegal (by simpa [MessageFits] using hfits)

theorem mapTableRows_resultsLegal {s : State} (hS : IndexTable s.sTab) (hT : IndexTable s.tTab) :
    ResultsLegal (mapTableRows s) := by
  refine resultsLegal_complete (Nat.zero_le _) (htbl := fun _ i hi => ?_)
  obtain ⟨hplain, hstage1, hstage2⟩ := tbl_row_storeTbl s.sTab s.tTab s hi
  exact ⟨hplain, ⟨_, hstage1, isUpper_upper _ (tableGet_lt hS _)⟩, ⟨_, hstage2, isUpper_upper _ (tableGet_lt hT _)⟩⟩

theorem mapTableCommand_resultsLegal (k : Int) {var : Variant} (hvar : var ≠ .none) (s : State) :
    ResultsLegal (mapTableCommand k var s) := by
  rcases mapTableCommand_cases k var s with ⟨-, e⟩ | ⟨-, e⟩
  · rw [e]
    exact resultsLegal_raise (by simp) (outputsCleared_clearOutputs s)
  · rw [e]
    exact mapTableRows_resultsLegal (by simpa using indexTable_shiftedAlphabet _) (indexTable_builtT hvar _)

/-! ### Every command, and every step -/

/-- Every command leaves the results legal, from any state. -/
theorem exec_resultsLegal (i : Instr) (s : State) : ∃ t, exec i s = .next t ∧ ResultsLegal t := by
  cases i with
  | isValid => exact ⟨_, rfl, messageCommand_resultsLegal fun _ => isValidBody_resultsLegal _⟩
  | encCaesar k => exact ⟨_, rfl, cipherCommand_resultsLegal encCaesarBody_resultsLegal⟩
  | decCaesar k => exact ⟨_, rfl, cipherCommand_resultsLegal decCaesarBody_resultsLegal⟩
  | encDoubleRev k =>
    exact ⟨_, rfl, cipherCommand_resultsLegal (encDoubleBody_resultsLegal (var := .reversed) nofun)⟩
  | encDoubleVf k =>
    exact ⟨_, rfl, cipherCommand_resultsLegal (encDoubleBody_resultsLegal (var := .vowelFirst) nofun)⟩
  | decDoubleRev k =>
    exact ⟨_, rfl, cipherCommand_resultsLegal (decDoubleBody_resultsLegal (var := .reversed) nofun)⟩
  | decDoubleVf k =>
    exact ⟨_, rfl, cipherCommand_resultsLegal (decDoubleBody_resultsLegal (var := .vowelFirst) nofun)⟩
  | mapTableRev k => exact ⟨_, rfl, mapTableCommand_resultsLegal (var := .reversed) k nofun s⟩
  | mapTableVf k => exact ⟨_, rfl, mapTableCommand_resultsLegal (var := .vowelFirst) k nofun s⟩

/-- Every issue leaves the results legal, whether or not the word spells a command. -/
theorem issue_resultsLegal (w : Word) (s : State) : ∃ t, issue w s = .next t ∧ ResultsLegal t := by
  rcases issue_cases w s with ⟨i, -, e⟩ | ⟨-, -, e⟩
  · rw [e]
    exact exec_resultsLegal i _
  · exact ⟨_, e, resultsLegal_raise (by simp) (outputsCleared_clearOutputs _)⟩

/-- The reset state has legal results, whatever MAXLEN is (R31). -/
theorem resultsLegal_resetOf (n : Nat) : ResultsLegal (State.resetOf n) where
  codes := ⟨show statusIdle ≠ 3 by decide, .inl rfl, show statusIdle = statusError ↔ errNone ≠ 0 by decide, .inl rfl,
    fun _ => ⟨rfl, rfl⟩, Nat.zero_le n⟩
  outputs := outputsHoldResults_of_outv_zero rfl

/-- `t` differs from `s` at most in IN, LEN and the model's own fields: what a host action may change that is neither an
issue nor a RESET (R49). -/
def OnlyHostFieldsDiffer (s t : State) : Prop :=
  t = { s with inBuf := t.inBuf, len := t.len, pending := t.pending, freeCount := t.freeCount, reply := t.reply }

/-- An action of the host touches no result, or leaves legal ones. -/
theorem hostAction_results (a : HostAction) (s : State) :
    ∃ t, hostAction a s = .next t ∧ (OnlyHostFieldsDiffer s t ∨ ResultsLegal t) := by
  cases a with
  | writeIn p v =>
    refine ⟨_, rfl, .inl ?_⟩
    rcases hostWriteIn_cases p v s with ⟨-, e⟩ | ⟨-, e⟩ <;> rw [e] <;> rfl
  | writeLen n => exact ⟨_, rfl, .inl rfl⟩
  | issue w =>
    obtain ⟨t, e, ht⟩ := issue_resultsLegal w s
    exact ⟨t, e, .inr ht⟩
  | writeResult r v =>
    refine ⟨_, rfl, .inl ?_⟩
    rw [hostWriteResult_eq]
    rfl
  | read item => exact ⟨_, rfl, .inl rfl⟩
  | reset =>
    obtain ⟨hcodes, houtputs⟩ := resultsLegal_resetOf s.maxLen
    exact ⟨_, rfl, .inr ⟨hcodes, houtputs⟩⟩

/-- A step touches no result, or leaves legal ones. -/
theorem step_results {s t : State} (h : step s = .next t) : OnlyHostFieldsDiffer s t ∨ ResultsLegal t := by
  rcases step_cases s with ⟨-, e⟩ | ⟨a, rest, -, e⟩
  · obtain rfl : s = t := by simpa [e] using h
    exact .inl rfl
  · obtain ⟨u, hu, hres⟩ := hostAction_results a (takeAction rest s)
    obtain rfl : u = t := by simpa [e, hu] using h
    exact hres

/-! ### Accesses to elements that do not exist (R30, R43) -/

/-- An element of OUT1, OUT2 or OUTP at or above MAXLEN is not present. -/
theorem present_of_le {item : Nat → ResultItem} (h : item ∈ [ResultItem.out1, ResultItem.out2, ResultItem.outp])
    {n p : Nat} (hp : n ≤ p) : (item p).present n = false := by
  simp only [List.mem_cons, List.not_mem_nil, or_false] at h
  rcases h with rfl | rfl | rfl <;> exact decide_eq_false (by omega)

/-- An element of TBL outside its 26 rows and 3 columns is not present. -/
theorem present_tbl_of_outside {i j : Nat} (h : 26 ≤ i ∨ 3 ≤ j) (n : Nat) : (ResultItem.tbl i j).present n = false := by
  simp only [ResultItem.present, Bool.and_eq_false_iff, decide_eq_false_iff_not]
  omega

theorem hostWriteResult_reply_of_not_present {r : ResultItem} {s : State} (h : r.present s.maxLen = false) :
    (hostWriteResult r s).reply = .refused := by
  simp [hostWriteResult, h]

theorem readItem_of_not_present {r : ResultItem} {s : State} (h : r.present s.maxLen = false) :
    readItem s (.res r) = .refused := by
  simp [readItem, h]

theorem readItem_inp_of_le {p : Nat} {s : State} (h : s.maxLen ≤ p) : readItem s (.inp p) = .refused := by
  simp [readItem, h]

/-- A step that reads what does not exist answers `refused` and changes nothing else. -/
theorem step_of_read_refused {s : State} {item : HostItem} {rest : List HostAction} (h : s.pending = .read item :: rest)
    (hitem : readItem (takeAction rest s) item = .refused) :
    step s = .next { s with pending := rest, freeCount := s.freeCount + 1, reply := .refused } := by
  rw [step_of_pending h, hostAction, hostRead, hitem]
  rfl

/-! ### The reset state -/

theorem boundedBy_nil (n : Nat) : BoundedBy n [] := fun _ _ => rfl

theorem buffersInForm_resetOf (n : Nat) : BuffersInForm (State.resetOf n) :=
  have hempty (b : Nat) : Memory.wf [] = true ∧ BoundedBy b [] := ⟨rfl, boundedBy_nil b⟩
  ⟨Nat.two_pow_pos _, hempty n, hempty n, hempty n, hempty n, hempty 78⟩

theorem scratchIndicesLegal_resetOf (n : Nat) : ScratchIndicesLegal (State.resetOf n) :=
  have hzero := indexTable_zeroTable
  ⟨show (0 : Index).toNat < 26 by decide, hzero, hzero, hzero, hzero⟩

/-- The reset state meets all the invariants, whatever MAXLEN is. -/
theorem inv_resetOf (n : Nat) : (State.resetOf n).Inv :=
  ⟨buffersInForm_resetOf n, (resultsLegal_resetOf n).codes, (resultsLegal_resetOf n).outputs,
    scratchIndicesLegal_resetOf n⟩

/-! ### The statements -/

/-- Settles O48: a step leaves the result registers alone or leaves legal ones, by `step_results`. -/
theorem stepKeepsResultCodesLegal : Obligations.StepKeepsResultCodesLegal := by
  intro s t hs hstep
  rcases step_results hstep with hsame | hlegal
  · rw [hsame]
    exact hs
  · exact hlegal.codes

/-- Settles O49: a step leaves OUTV and the outputs alone or leaves the valid ones filled, by `step_results`. -/
theorem stepKeepsOutputsFilled : Obligations.StepKeepsOutputsFilled := by
  intro s t hs hstep
  rcases step_results hstep with hsame | hlegal
  · rw [hsame]
    exact hs
  · exact hlegal.outputs

/-- Settles O39: a number of LEN_W bits is its own low LEN_W bits. -/
theorem hostWritesTheLength : Obligations.HostWritesTheLength := by
  intro s n rest hpending hn
  rw [step_of_pending hpending, hostAction, hostWriteLen, takeAction_maxLen, lenBits_of_lt hn]
  rfl

/-- Settles O42: an access changes the interface's answer only, and is refused where the item is not present. -/
theorem resultItemsAreReadOnly : Obligations.ResultItemsAreReadOnly := by
  refine ⟨fun s r v rest hpending => ⟨hostWriteResult r (takeAction rest s), step_of_pending hpending, ?_, ?_, ?_⟩,
    fun s item rest hpending => ⟨?_, ?_⟩⟩
  · exact hostWriteResult_eq r (takeAction rest s)
  · intro p hp hr
    have habsent : r.present s.maxLen = false := by
      rcases hr with rfl | rfl | rfl <;> exact present_of_le (by simp) hp
    exact hostWriteResult_reply_of_not_present habsent
  · rintro i j hij rfl
    exact hostWriteResult_reply_of_not_present (present_tbl_of_outside hij _)
  · intro p hp hitem
    have hrefused : readItem (takeAction rest s) item = .refused := by
      rcases hitem with rfl | rfl | rfl | rfl
      · exact readItem_inp_of_le hp
      all_goals exact readItem_of_not_present (present_of_le (by simp) hp)
    exact step_of_read_refused hpending hrefused
  · rintro i j hij rfl
    exact step_of_read_refused hpending (readItem_of_not_present (present_tbl_of_outside hij _))

/-- Settles O44: registers and buffers by the fields of the reset state, the two constants entry by entry. -/
theorem resetStateIsAsListed : Obligations.ResetStateIsAsListed := by
  have halpha : ∀ i : Fin 26, (lower (BitVec.ofNat 5 i.val)).toNat = 0x61 + i.val := by decide
  have hvf : ∀ i : Fin 26, (romVf[i.val].toNat : Int) = vowelFirst i.val := by decide +kernel
  exact ⟨rfl, rfl, rfl, rfl, rfl, rfl, fun _ => ⟨rfl, rfl, rfl, rfl, rfl⟩, halpha, hvf⟩

/-- Settles O46: the invariants hold at reset for every MAXLEN, so for the suggested one. -/
theorem resetStateMeetsTheInvariants : Obligations.ResetStateMeetsTheInvariants := inv_resetOf Config.maxLen

end Sys2Proof.Machine
end

section
/-! PROOFS. Family 20_memory.md: what a command may write (R46), that every step keeps the buffers in form (R14, R40),
and what the host's reads and writes leave alone (R44, R49).

The first two rest on one description of a command, `CommandEffect`: a command differs from the state it starts in only in
result registers, outputs and scratch, and of the outputs it writes at most those of its OUTV mask, each by one string
stored from element 0 up. `exec_effect` says so of every command, from any state. -/

namespace Sys2Proof.Machine

/-! ### What a command does to an output -/

/-- The outputs that a command may write (R46), as OUTV bits (R18); `exec_effect` shows that it writes no other. -/
def outputMask : Instr → BitVec 5
  | .isValid => outvVR
  | .encCaesar _ => outvV1
  | .decCaesar _ => outvVP
  | .encDoubleRev _ => outvV1 ||| outvV2
  | .encDoubleVf _ => outvV1 ||| outvV2
  | .decDoubleRev _ => outvVP
  | .decDoubleVf _ => outvVP
  | .mapTableRev _ => outvVT
  | .mapTableVf _ => outvVT

/-- `mask` names the output of the OUTV bit `bit`. -/
def MaskHas (mask bit : BitVec 5) : Prop := mask &&& bit = bit

/-- A buffer is as before, or, where it may be written, has had one string of at most `n` characters stored in it, from
element 0 up. -/
def KeptOrStored (mayWrite : Prop) (n : Nat) (before after : Memory) : Prop :=
  after = before ∨ mayWrite ∧ ∃ str : List Byte, str.length ≤ n ∧ after = Memory.writeString before 0 str

theorem keptOrStored_writeString {mayWrite : Prop} (hmay : mayWrite) {n : Nat} {str : List Byte} (h : str.length ≤ n)
    (m : Memory) : KeptOrStored mayWrite n m (Memory.writeString m 0 str) := .inr ⟨hmay, str, h, rfl⟩

/-- A string stored within the range of a buffer keeps it in form. -/
theorem KeptOrStored.inForm {mayWrite : Prop} {n : Nat} {before after : Memory}
    (h : KeptOrStored mayWrite n before after) (hbefore : Memory.wf before = true ∧ BoundedBy n before) :
    Memory.wf after = true ∧ BoundedBy n after := by
  obtain ⟨hwf, hbounded⟩ := hbefore
  rcases h with rfl | ⟨-, str, hlen, rfl⟩
  · exact ⟨hwf, hbounded⟩
  · exact ⟨wf_writeString str before 0 hwf, boundedBy_writeString str (by omega) hbounded⟩

/-! ### What a command does to the state -/

/-- `t` differs from `s` at most in STATUS, ERR, OUTV, OUTLEN and the scratch: what the checks, the tables and the two ends
of a command may change. -/
def OutputsKept (s t : State) : Prop :=
  t = { s with
    status := t.status, err := t.err, outv := t.outv, outlen := t.outlen, kLatch := t.kLatch, sTab := t.sTab,
    tTab := t.tTab, fwd := t.fwd, bwd := t.bwd, pos := t.pos }

/-- All that a command of the output mask `mask` may change: result registers, scratch, and the outputs of the mask. -/
structure CommandEffect (mask : BitVec 5) (s t : State) : Prop where
  frame : t = { s with
    status := t.status, err := t.err, outv := t.outv, outlen := t.outlen, result := t.result, out1 := t.out1,
    out2 := t.out2, outp := t.outp, tbl := t.tbl, kLatch := t.kLatch, sTab := t.sTab, tTab := t.tTab, fwd := t.fwd,
    bwd := t.bwd, pos := t.pos }
  out1 : KeptOrStored (MaskHas mask outvV1) s.maxLen s.out1 t.out1
  out2 : KeptOrStored (MaskHas mask outvV2) s.maxLen s.out2 t.out2
  outp : KeptOrStored (MaskHas mask outvVP) s.maxLen s.outp t.outp
  result : t.result = s.result ∨ MaskHas mask outvVR
  tbl : KeptOrStored (MaskHas mask outvVT) 78 s.tbl t.tbl

/-- A command that writes no output, as one that ends in an error (R159), is within every mask. -/
theorem OutputsKept.effect {mask : BitVec 5} {s t : State} (h : OutputsKept s t) : CommandEffect mask s t := by
  rw [h]
  exact ⟨rfl, .inl rfl, .inl rfl, .inl rfl, .inl rfl, .inl rfl⟩

/-- What a command does before it writes an output is no part of its effect. -/
theorem OutputsKept.trans_effect {mask : BitVec 5} {s u t : State} (h : OutputsKept s u)
    (he : CommandEffect mask u t) : CommandEffect mask s t := by
  rw [h] at he
  obtain ⟨frame, out1, out2, outp, result, tbl⟩ := he
  exact ⟨frame, out1, out2, outp, result, tbl⟩

/-- What no command writes (R46). -/
theorem CommandEffect.kept {mask : BitVec 5} {s t : State} (h : CommandEffect mask s t) :
    t.cmd = s.cmd ∧ t.len = s.len ∧ t.inBuf = s.inBuf ∧ t.maxLen = s.maxLen ∧
    t.pending = s.pending ∧ t.freeCount = s.freeCount ∧ t.reply = s.reply := by
  rw [h.frame]
  exact ⟨rfl, rfl, rfl, rfl, rfl, rfl, rfl⟩

/-- A cipher command has the effect of its body (R130); the body runs with LEN within MAXLEN. -/
theorem cipherCommand_effect {mask : BitVec 5} {k : Int} {body : State → State} {s : State}
    (hbody : MessageFits (bodyState k s) → CommandEffect mask (bodyState k s) (body (bodyState k s))) :
    CommandEffect mask s (cipherCommand k body s) := by
  rcases cipherCommand_cases k body s with ⟨-, e⟩ | ⟨-, -, e⟩ | ⟨-, -, -, e⟩ | ⟨hfits, -, -, e⟩ <;> rw [e]
  · exact OutputsKept.effect (by rfl)
  · exact OutputsKept.effect (by rfl)
  · exact OutputsKept.effect (by rfl)
  · exact OutputsKept.trans_effect (u := bodyState k s) rfl (hbody hfits)

theorem isValidCommand_effect (s : State) : CommandEffect outvVR s (messageCommand isValidBody s) := by
  rcases messageCommand_cases isValidBody s with ⟨-, e⟩ | ⟨-, e⟩ <;> rw [e]
  · exact OutputsKept.effect (by rfl)
  · exact ⟨rfl, .inl rfl, .inl rfl, .inl rfl, .inr rfl, .inl rfl⟩

theorem encCaesarBody_effect {s : State} (hfits : MessageFits s) : CommandEffect outvV1 s (encCaesarBody s) where
  frame := rfl
  out1 := keptOrStored_writeString rfl (by simpa [MessageFits] using hfits) _
  out2 := .inl rfl
  outp := .inl rfl
  result := .inl rfl
  tbl := .inl rfl

theorem decCaesarBody_effect {s : State} (hfits : MessageFits s) : CommandEffect outvVP s (decCaesarBody s) where
  frame := rfl
  out1 := .inl rfl
  out2 := .inl rfl
  outp := keptOrStored_writeString rfl (by simpa [MessageFits] using hfits) _
  result := .inl rfl
  tbl := .inl rfl

theorem encDoubleStrings_effect {s : State} (hfits : MessageFits s) :
    CommandEffect (outvV1 ||| outvV2) s (encDoubleStrings s) where
  frame := rfl
  out1 := keptOrStored_writeString rfl (by simpa [MessageFits] using hfits) _
  out2 := keptOrStored_writeString rfl (by simpa [MessageFits] using hfits) _
  outp := .inl rfl
  result := .inl rfl
  tbl := .inl rfl

theorem decDoubleStrings_effect {s : State} (hfits : MessageFits s) :
    CommandEffect outvVP s (decDoubleStrings s) where
  frame := rfl
  out1 := .inl rfl
  out2 := .inl rfl
  outp := keptOrStored_writeString rfl (by simpa [MessageFits] using hfits) _
  result := .inl rfl
  tbl := .inl rfl

/-- The tables and the maps are scratch. -/
theorem outputsKept_builtTables (var : Variant) (s : State) : OutputsKept s (writeMaps (buildT var (buildS s))) := by
  cases var <;> rfl

/-- A double cipher has the effect of its strings. -/
theorem doubleBody_effect {mask : BitVec 5} {var : Variant} (hvar : var ≠ .none) {strings : State → State}
    (hstrings : ∀ {u : State}, MessageFits u → CommandEffect mask u (strings u)) {s : State} (hfits : MessageFits s) :
    CommandEffect mask s (buildMaps strings (buildT var (buildS s))) := by
  rw [buildMaps_builtTables hvar]
  exact (outputsKept_builtTables var s).trans_effect (hstrings (by simpa [MessageFits] using hfits))

/-- The end of MAP_TABLE, whatever the elements of TBL are, when they are 78 at most. -/
theorem storeTbl_effect {codes : List Byte} (h : codes.length ≤ 78) (s : State) :
    CommandEffect outvVT s (complete outvVT 0 (storeTbl codes s)) where
  frame := rfl
  out1 := .inl rfl
  out2 := .inl rfl
  outp := .inl rfl
  result := .inl rfl
  tbl := keptOrStored_writeString rfl h _

theorem mapTableRows_effect (s : State) : CommandEffect outvVT s (mapTableRows s) := by
  rw [mapTableRows]
  exact storeTbl_effect (tableCodes_length _ _).le s

theorem mapTableCommand_effect (k : Int) (var : Variant) (s : State) :
    CommandEffect outvVT s (mapTableCommand k var s) := by
  rcases mapTableCommand_cases k var s with ⟨-, e⟩ | ⟨-, e⟩ <;> rw [e]
  · exact OutputsKept.effect (by rfl)
  · have hbuilt : OutputsKept s (buildT var (buildS (latchShift k (clearOutputs s)))) := by cases var <;> rfl
    exact hbuilt.trans_effect (mapTableRows_effect _)

/-- Everything a command can do to the state, whatever the state is: it stays within its output mask. -/
theorem exec_effect (i : Instr) (s : State) : ∃ t, exec i s = .next t ∧ CommandEffect (outputMask i) s t := by
  cases i with
  | isValid => exact ⟨_, rfl, isValidCommand_effect s⟩
  | encCaesar k => exact ⟨_, rfl, cipherCommand_effect encCaesarBody_effect⟩
  | decCaesar k => exact ⟨_, rfl, cipherCommand_effect decCaesarBody_effect⟩
  | encDoubleRev k =>
    exact ⟨_, rfl, cipherCommand_effect (doubleBody_effect (var := .reversed) nofun encDoubleStrings_effect)⟩
  | encDoubleVf k =>
    exact ⟨_, rfl, cipherCommand_effect (doubleBody_effect (var := .vowelFirst) nofun encDoubleStrings_effect)⟩
  | decDoubleRev k =>
    exact ⟨_, rfl, cipherCommand_effect (doubleBody_effect (var := .reversed) nofun decDoubleStrings_effect)⟩
  | decDoubleVf k =>
    exact ⟨_, rfl, cipherCommand_effect (doubleBody_effect (var := .vowelFirst) nofun decDoubleStrings_effect)⟩
  | mapTableRev k => exact ⟨_, rfl, mapTableCommand_effect k .reversed s⟩
  | mapTableVf k => exact ⟨_, rfl, mapTableCommand_effect k .vowelFirst s⟩

/-! ### Which commands have an output in their mask -/

theorem encrypts_of_maskHas_V1 {i : Instr} (h : MaskHas (outputMask i) outvV1) : ∃ v k, i = encryptWith v k := by
  cases i with
  | encCaesar k => exact ⟨.none, k, rfl⟩
  | encDoubleRev k => exact ⟨.reversed, k, rfl⟩
  | encDoubleVf k => exact ⟨.vowelFirst, k, rfl⟩
  | _ => simp [MaskHas, outputMask, outvV1, outvVP, outvVR, outvVT] at h

theorem doubleEncrypts_of_maskHas_V2 {i : Instr} (h : MaskHas (outputMask i) outvV2) :
    ∃ v k, v ≠ Variant.none ∧ i = encryptWith v k := by
  cases i with
  | encDoubleRev k => exact ⟨.reversed, k, nofun, rfl⟩
  | encDoubleVf k => exact ⟨.vowelFirst, k, nofun, rfl⟩
  | _ => simp [MaskHas, outputMask, outvV1, outvV2, outvVP, outvVR, outvVT] at h

theorem decrypts_of_maskHas_VP {i : Instr} (h : MaskHas (outputMask i) outvVP) : ∃ v k, i = decryptWith v k := by
  cases i with
  | decCaesar k => exact ⟨.none, k, rfl⟩
  | decDoubleRev k => exact ⟨.reversed, k, rfl⟩
  | decDoubleVf k => exact ⟨.vowelFirst, k, rfl⟩
  | _ => simp [MaskHas, outputMask, outvV1, outvV2, outvVP, outvVR, outvVT] at h

theorem isValid_of_maskHas_VR {i : Instr} (h : MaskHas (outputMask i) outvVR) : i = .isValid := by
  cases i with
  | isValid => rfl
  | _ => simp [MaskHas, outputMask, outvV1, outvV2, outvVP, outvVR, outvVT] at h

theorem mapTable_of_maskHas_VT {i : Instr} (h : MaskHas (outputMask i) outvVT) :
    ∃ k, i = .mapTableRev k ∨ i = .mapTableVf k := by
  cases i with
  | mapTableRev k => exact ⟨k, .inl rfl⟩
  | mapTableVf k => exact ⟨k, .inr rfl⟩
  | _ => simp [MaskHas, outputMask, outvV1, outvV2, outvVP, outvVR, outvVT] at h

/-! ### The buffers stay in form -/

/-- A command keeps the buffers in form: what it stores fits the range of the buffer. -/
theorem CommandEffect.buffersInForm {mask : BitVec 5} {s t : State} (h : CommandEffect mask s t)
    (hs : BuffersInForm s) : BuffersInForm t := by
  obtain ⟨hlen, hin, hout1, hout2, houtp, htbl⟩ := hs
  obtain ⟨-, hlenKept, hinKept, hmaxKept, -⟩ := h.kept
  rw [BuffersInForm, hlenKept, hinKept, hmaxKept]
  exact ⟨hlen, hin, h.out1.inForm hout1, h.out2.inForm hout2, h.outp.inForm houtp, h.tbl.inForm htbl⟩

theorem hostWriteIn_buffersInForm {s : State} (p : Nat) (v : Byte) (hs : BuffersInForm s) :
    BuffersInForm (hostWriteIn p v s) := by
  rcases hostWriteIn_cases p v s with ⟨hp, e⟩ | ⟨-, e⟩ <;> rw [e]
  · obtain ⟨hlen, ⟨hwf, hbounded⟩, houtputs⟩ := hs
    exact ⟨hlen, ⟨wf_write s.inBuf p v hwf, boundedBy_write v hp hbounded⟩, houtputs⟩
  · exact hs

theorem hostWriteLen_buffersInForm {s : State} (n : Nat) (hs : BuffersInForm s) : BuffersInForm (hostWriteLen n s) := by
  obtain ⟨-, hbuffers⟩ := hs
  exact ⟨lenBits_lt s.maxLen n, hbuffers⟩

theorem issue_buffersInForm {s : State} (w : Word) (hs : BuffersInForm s) :
    ∃ t, issue w s = .next t ∧ BuffersInForm t := by
  rcases issue_cases w s with ⟨i, -, e⟩ | ⟨-, -, e⟩
  · obtain ⟨t, ht, heffect⟩ := exec_effect i { s with cmd := w, reply := .done }
    exact ⟨t, e.trans ht, heffect.buffersInForm hs⟩
  · exact ⟨_, e, hs⟩

theorem hostAction_buffersInForm {s : State} (a : HostAction) (hs : BuffersInForm s) :
    ∃ t, hostAction a s = .next t ∧ BuffersInForm t := by
  cases a with
  | writeIn p v => exact ⟨_, rfl, hostWriteIn_buffersInForm p v hs⟩
  | writeLen n => exact ⟨_, rfl, hostWriteLen_buffersInForm n hs⟩
  | issue w => exact issue_buffersInForm w hs
  | writeResult r v =>
    refine ⟨_, rfl, ?_⟩
    rw [hostWriteResult_eq]
    exact hs
  | read item => exact ⟨_, rfl, hs⟩
  | reset => exact ⟨_, rfl, buffersInForm_resetOf s.maxLen⟩

/-! ### What the host's other actions leave alone (R44, R49) -/

/-- A host action that is neither an issue nor a RESET writes at most IN, LEN and the model's own fields. -/
theorem hostAction_onlyHostFieldsDiffer {a : HostAction} (hissue : ∀ w, a ≠ .issue w) (hreset : a ≠ .reset) (s : State) :
    ∃ t, hostAction a s = .next t ∧ OnlyHostFieldsDiffer s t := by
  cases a with
  | writeIn p v =>
    refine ⟨_, rfl, ?_⟩
    rcases hostWriteIn_cases p v s with ⟨-, e⟩ | ⟨-, e⟩ <;> rw [e] <;> rfl
  | writeLen n => exact ⟨_, rfl, rfl⟩
  | issue w => exact absurd rfl (hissue w)
  | writeResult r v => exact ⟨_, rfl, by rw [hostWriteResult_eq]; rfl⟩
  | read item => exact ⟨_, rfl, rfl⟩
  | reset => exact absurd rfl hreset

/-! ### What a read answers (R71) -/

/-- A written element of IN is what a command or a read finds there. -/
theorem inByte_of_read {s : State} {p : Nat} {c : Byte} (h : Memory.read s.inBuf p = some c) : inByte s p = c := by
  simp only [inByte, h]

theorem readItem_inp {s : State} {p : Nat} {c : Byte} (hp : p < s.maxLen) (hc : Memory.read s.inBuf p = some c) :
    readItem s (.inp p) = .value c.toNat := by
  simp only [readItem, if_pos hp, inByte_of_read hc]

/-- A read of a result item that exists answers what stands in it. -/
theorem readItem_of_present {r : ResultItem} {s : State} (h : r.present s.maxLen = true) :
    readItem s (.res r) = .value (readResult s r) := if_pos h

theorem readResult_result {s : State} (hvalid : s.outputValid outvVR = true) :
    readResult s .result = s.result.toNat := by
  simp only [readResult, if_pos hvalid]

/-- An element of OUT1, OUT2 or OUTP that holds a value is what a read of it answers. -/
theorem readItem_output {s : State} {item : Nat → ResultItem} {mask : BitVec 5} {m : Memory}
    (h : (item, mask, m) ∈ [(ResultItem.out1, outvV1, s.out1), (ResultItem.out2, outvV2, s.out2),
      (ResultItem.outp, outvVP, s.outp)])
    {p : Nat} {c : Byte} (hp : p < s.maxLen) (hvalid : s.outputValid mask = true) (hlen : p < s.outlen)
    (hc : Memory.read m p = some c) : readItem s (.res (item p)) = .value c.toNat := by
  have hresult : readResult s (item p) = (outputByte s (s.outputValid mask && decide (p < s.outlen)) m p).toNat := by
    simp only [List.mem_cons, List.not_mem_nil, or_false, Prod.mk.injEq] at h
    rcases h with ⟨rfl, rfl, rfl⟩ | ⟨rfl, rfl, rfl⟩ | ⟨rfl, rfl, rfl⟩ <;> rfl
  have hpresent : (item p).present s.maxLen = true := by
    refine present_of_lt ?_ hp
    simp only [List.mem_cons, List.not_mem_nil, or_false, Prod.mk.injEq] at h ⊢
    exact h.imp And.left (Or.imp And.left And.left)
  rw [readItem_of_present hpresent, hresult, hvalid, decide_eq_true hlen, Bool.and_self, outputByte_of_read hc]

/-- An element of TBL that holds a value is what a read of it answers. -/
theorem readItem_tbl {s : State} {i j : Nat} {c : Byte} (hi : i < 26) (hj : j < 3)
    (hvalid : s.outputValid outvVT = true) (hc : Memory.read s.tbl (tblIndex i j) = some c) :
    readItem s (.res (.tbl i j)) = .value c.toNat := by
  have hpresent : (ResultItem.tbl i j).present s.maxLen = true := by simp [ResultItem.present, hi, hj]
  rw [readItem_of_present hpresent, readResult, hvalid, outputByte_of_read hc]

/-! ### The statements -/

/-- Settles O47: by the host's action of the step; a command by its effect, RESET because its buffers are empty. -/
theorem stepKeepsBuffersInForm : Obligations.StepKeepsBuffersInForm := by
  intro s t hs hstep
  rcases step_cases s with ⟨-, e⟩ | ⟨a, rest, -, e⟩
  · obtain rfl : s = t := by simpa [e] using hstep
    exact hs
  · obtain ⟨u, hu, hform⟩ := hostAction_buffersInForm (s := takeAction rest s) a hs
    obtain rfl : u = t := by simpa [e, hu] using hstep
    exact hform

/-- Settles O30: the frame of `exec_effect`, and the commands that have each output in their mask. -/
theorem commandsWriteOnlyTheirOutputs : Obligations.CommandsWriteOnlyTheirOutputs := by
  intro i s
  obtain ⟨t, ht, heffect⟩ := exec_effect i s
  obtain ⟨hcmd, hlen, hin, hmax, hpending, hcount, hreply⟩ := heffect.kept
  exact ⟨t, ht, hcmd, hlen, hin, hmax, hpending, hcount, hreply,
    heffect.out1.imp_right fun ⟨hmask, _⟩ => encrypts_of_maskHas_V1 hmask,
    heffect.out2.imp_right fun ⟨hmask, _⟩ => doubleEncrypts_of_maskHas_V2 hmask,
    heffect.outp.imp_right fun ⟨hmask, _⟩ => decrypts_of_maskHas_VP hmask,
    heffect.result.imp_right isValid_of_maskHas_VR,
    heffect.tbl.imp_right fun ⟨hmask, _⟩ => mapTable_of_maskHas_VT hmask⟩

/-- Settles O41: the read changes the interface's answer only, and that is `readItem` of the item. -/
theorem hostReadsReturnTheValueAndChangeNothing : Obligations.HostReadsReturnTheValueAndChangeNothing := by
  intro s item rest hpending
  refine ⟨hostRead item (takeAction rest s), step_of_pending hpending, rfl, ?cmd, ?len, ?inp, ?status, ?err, ?outv,
    ?outlen, ?result, ?out1, ?out2, ?outp, ?tbl⟩
  case cmd | len | status | err | outv | outlen => rintro rfl; rfl
  case inp =>
    rintro p c rfl hp hc
    exact readItem_inp (s := takeAction rest s) hp hc
  case result =>
    rintro rfl hvalid
    exact congrArg HostReply.value (readResult_result (s := takeAction rest s) hvalid)
  case out1 =>
    rintro p c rfl hp hvalid hlen hc
    exact readItem_output (s := takeAction rest s) (item := .out1) (by simp) hp hvalid hlen hc
  case out2 =>
    rintro p c rfl hp hvalid hlen hc
    exact readItem_output (s := takeAction rest s) (item := .out2) (by simp) hp hvalid hlen hc
  case outp =>
    rintro p c rfl hp hvalid hlen hc
    exact readItem_output (s := takeAction rest s) (item := .outp) (by simp) hp hvalid hlen hc
  case tbl =>
    rintro i j c rfl hi hj hvalid hc
    exact readItem_tbl (s := takeAction rest s) hi hj hvalid hc

/-- Settles O43: a host action that is neither an issue nor a reset writes no result. -/
theorem resultsStayUntilTheNextIssue : Obligations.ResultsStayUntilTheNextIssue := by
  intro s a rest hpending hissue hreset
  obtain ⟨t, ht, hframe⟩ := hostAction_onlyHostFieldsDiffer hissue hreset (takeAction rest s)
  refine ⟨t, (step_of_pending hpending).trans ht, ?_⟩
  rw [hframe]
  exact ⟨rfl, rfl, rfl, rfl, rfl, rfl, rfl, rfl, rfl, rfl⟩

end Sys2Proof.Machine
end

section
/-! PROOFS. Family 30_encoding.md, the command word and the character codes: that decode and encode are inverse (R60 to
R66), which words are illegal and what issuing one does (R65), the character classes and their indices (R67).

The statements on decode go through one relation, `Spells w i`: the low byte of the word `w` is the one that R64 gives
the row of the command `i`, and its SHIFT field is the shift of `i`. Decode answers `i` exactly where `w` spells it
(`decode_eq_ok_iff_spells`), and the word that encode gives a well-formed `i` is the only one to spell it
(`spells_iff_encode`). -/

namespace Sys2Proof.Machine

open Sys2Proof.Laws (lowByte)

/-! ### The fields of a word (R60) -/

theorem shiftField_append (hi low : Byte) : shiftField (hi ++ low) = hi := BitVec.extractLsb'_append_eq_left

/-- A word is its SHIFT field above its low byte. -/
theorem shiftField_append_low (w : Word) : shiftField w ++ w.setWidth 8 = w := by
  rw [BitVec.setWidth_eq_extractLsb' (by decide)]
  exact BitVec.extractLsb'_append_extractLsb'

theorem low_eq_fields (w : Word) : w.setWidth 8 = rsvField w ++ (varField w ++ opField w) := by
  have hlow : varField w ++ opField w = w.extractLsb' 0 5 :=
    BitVec.extractLsb'_append_extractLsb'_eq_extractLsb' (start₁ := 0) (len₁ := 3) rfl
  have hbyte : rsvField w ++ w.extractLsb' 0 5 = w.extractLsb' 0 8 :=
    BitVec.extractLsb'_append_extractLsb'_eq_extractLsb' (start₁ := 0) (len₁ := 5) rfl
  rw [hlow, hbyte, BitVec.setWidth_eq_extractLsb' (by decide)]

/-- The low byte determines the three fields below SHIFT. -/
theorem fields_of_low {w : Word} {rsv : BitVec 3} {var : BitVec 2} {op : BitVec 3}
    (h : w.setWidth 8 = rsv ++ (var ++ op)) : rsvField w = rsv ∧ varField w = var ∧ opField w = op := by
  have hop : (rsv ++ (var ++ op)).extractLsb' 0 3 = op := by
    rw [BitVec.extractLsb'_append_eq_of_add_le (by decide), BitVec.extractLsb'_append_eq_right]
  have hvar : (rsv ++ (var ++ op)).extractLsb' 3 2 = var := by
    rw [BitVec.extractLsb'_append_eq_of_add_le (by decide), BitVec.extractLsb'_append_eq_left]
  have hrsv : (rsv ++ (var ++ op)).extractLsb' 5 3 = rsv := BitVec.extractLsb'_append_eq_left
  rw [← shiftField_append_low w, h, rsvField, varField, opField]
  refine ⟨?_, ?_, ?_⟩
  · rwa [BitVec.extractLsb'_append_eq_of_add_le (by decide)]
  · rwa [BitVec.extractLsb'_append_eq_of_add_le (by decide)]
  · rwa [BitVec.extractLsb'_append_eq_of_add_le (by decide)]

/-! ### The commands by their row and their shift (R64) -/

/-- OP of a command's row. -/
def rowOp : Instr → BitVec 3
  | .isValid => 1
  | .encCaesar _ => 2
  | .decCaesar _ => 3
  | .encDoubleRev _ => 4
  | .encDoubleVf _ => 4
  | .decDoubleRev _ => 5
  | .decDoubleVf _ => 5
  | .mapTableRev _ => 6
  | .mapTableVf _ => 6

/-- VAR of a command's row. -/
def rowVar : Instr → BitVec 2
  | .isValid => 0
  | .encCaesar _ => 0
  | .decCaesar _ => 0
  | .encDoubleRev _ => 1
  | .encDoubleVf _ => 2
  | .decDoubleRev _ => 1
  | .decDoubleVf _ => 2
  | .mapTableRev _ => 1
  | .mapTableVf _ => 2

theorem lowByte_eq_row (i : Instr) : lowByte i = 0#3 ++ (rowVar i ++ rowOp i) := by
  cases i <;> simp [lowByte, rowVar, rowOp]

/-- The shift that stands in the word of a command: its operand, 0 for IS_VALID, which has none (R63, R64). -/
def wordShift (i : Instr) : Int := (shiftOf i).getD 0

/-- A command is well-formed when the SHIFT field can carry its shift. -/
theorem wf_eq_shiftSpellable (i : Instr) : i.wf = shiftSpellable (wordShift i) := by
  cases i <;> rfl

/-- The word of a command is its shift above the low byte of its row. -/
theorem encode_eq_append (i : Instr) : encode i = BitVec.ofInt 8 (wordShift i) ++ lowByte i := by
  cases i <;> rfl

/-- The word spells the command: its low byte is that of the command's row, its SHIFT field the command's shift. -/
def Spells (w : Word) (i : Instr) : Prop := w.setWidth 8 = lowByte i ∧ (shiftField w).toInt = wordShift i

/-- A command is spelled by the word that encode gives it, if it is well-formed, and by no other word. -/
theorem spells_iff_encode {w : Word} {i : Instr} : Spells w i ↔ i.wf = true ∧ encode i = w := by
  rw [wf_eq_shiftSpellable, encode_eq_append, Spells]
  constructor
  · rintro ⟨hlow, hshift⟩
    rw [← hlow, ← hshift, BitVec.ofInt_toInt]
    refine ⟨?_, shiftField_append_low w⟩
    have hle := BitVec.le_toInt (shiftField w)
    have hlt := BitVec.toInt_lt (x := shiftField w)
    simp only [shiftSpellable, Bool.and_eq_true, decide_eq_true_eq]
    omega
  · rintro ⟨hwf, rfl⟩
    simp only [shiftSpellable, Bool.and_eq_true, decide_eq_true_eq] at hwf
    refine ⟨BitVec.setWidth_append_eq_right, ?_⟩
    rw [shiftField_append]
    exact BitVec.toInt_ofInt_eq_self (by decide) (by omega) (by omega)

theorem spells_iff_fields {w : Word} {i : Instr} : Spells w i ↔
    rsvField w = 0 ∧ varField w = rowVar i ∧ opField w = rowOp i ∧ (shiftField w).toInt = wordShift i := by
  rw [Spells, lowByte_eq_row]
  constructor
  · rintro ⟨hlow, hshift⟩
    obtain ⟨hrsv, hvar, hop⟩ := fields_of_low hlow
    exact ⟨hrsv, hvar, hop, hshift⟩
  · rintro ⟨hrsv, hvar, hop, hshift⟩
    exact ⟨by rw [low_eq_fields, hrsv, hvar, hop]; rfl, hshift⟩

/-! ### Decode answers the command that the word spells (R66) -/

theorem decode_of_spells {w : Word} {i : Instr} (h : Spells w i) : decode w = .ok i := by
  obtain ⟨hrsv, hvar, hop, hshift⟩ := spells_iff_fields.1 h
  cases i with
  | isValid =>
    have hzero : shiftField w = 0 := BitVec.eq_of_toInt_eq hshift
    rw [decode, hrsv, hvar, hop, hzero]
    rfl
  | _ =>
    rw [decode, hrsv, hvar, hop, hshift]
    rfl

/-- A decision that answers a command answers it in one of its two branches. -/
theorem eq_or_of_ite_eq_ok {c : Prop} [Decidable c] {i j : Instr} {other : Except DecodeError Instr}
    (h : (if c then .ok j else other) = .ok i) : (c ∧ j = i) ∨ other = .ok i := by
  by_cases hc : c
  · rw [if_pos hc] at h
    exact .inl ⟨hc, Except.ok.inj h⟩
  · rw [if_neg hc] at h
    exact .inr h

/-- Every branch of decode that answers a command has tested the fields of the command's row. -/
theorem spells_of_decode {w : Word} {i : Instr} (h : decode w = .ok i) : Spells w i := by
  rw [spells_iff_fields]
  rw [decode] at h
  by_cases hrsv : rsvField w = 0
  · rw [if_neg (not_not_intro hrsv)] at h
    rcases eq_or_of_ite_eq_ok h with ⟨⟨hop, hvar, hzero⟩, rfl⟩ | h
    · exact ⟨hrsv, hvar, hop, congrArg BitVec.toInt hzero⟩
    iterate 8
      rcases eq_or_of_ite_eq_ok h with ⟨⟨hop, hvar⟩, rfl⟩ | h
      · exact ⟨hrsv, hvar, hop, rfl⟩
    cases h
  · rw [if_pos hrsv] at h
    cases h

/-- Decode answers a command exactly where the word spells it. -/
theorem decode_eq_ok_iff_spells {w : Word} {i : Instr} : decode w = .ok i ↔ Spells w i :=
  ⟨spells_of_decode, decode_of_spells⟩

/-! ### Rows by mask and match (R64) -/

/-- The mask 0x00FF of a row compares the low byte. -/
theorem and_mask_eq_iff (w : Word) (low : Byte) : w &&& 0x00FF = low.setWidth 16 ↔ w.setWidth 8 = low := by
  have hmask : (w &&& 0x00FF).toNat = (w.setWidth 8).toNat := by
    rw [BitVec.toNat_and, BitVec.toNat_setWidth]
    exact Nat.and_two_pow_sub_one_eq_mod w.toNat 8
  rw [← BitVec.toNat_inj, ← BitVec.toNat_inj (y := low), hmask, BitVec.toNat_setWidth_of_le (b := low) (by decide)]

/-- A row with a shift, by mask and match. -/
theorem decode_eq_ok_iff_mask (w : Word) (i : Instr) :
    decode w = .ok i ↔ w &&& 0x00FF = (lowByte i).setWidth 16 ∧ wordShift i = (shiftField w).toInt := by
  rw [decode_eq_ok_iff_spells, Spells, and_mask_eq_iff, eq_comm (a := wordShift i)]

/-! ### Illegal words (R65) -/

/-- A word is legal exactly when its fields are those of a row. -/
theorem exists_spells_iff (w : Word) : (∃ i, Spells w i) ↔
    rsvField w = 0 ∧
      ((opField w = 1 ∧ varField w = 0 ∧ shiftField w = 0) ∨ ((opField w = 2 ∨ opField w = 3) ∧ varField w = 0) ∨
        ((opField w = 4 ∨ opField w = 5 ∨ opField w = 6) ∧ (varField w = 1 ∨ varField w = 2))) := by
  constructor
  · rintro ⟨i, hi⟩
    obtain ⟨hrsv, hvar, hop, hshift⟩ := spells_iff_fields.1 hi
    refine ⟨hrsv, ?_⟩
    cases i with
    | isValid => exact .inl ⟨hop, hvar, BitVec.eq_of_toInt_eq hshift⟩
    | _ => simp [hvar, hop, rowVar, rowOp]
  · rintro ⟨hrsv, ⟨hop, hvar, hzero⟩ | ⟨hop | hop, hvar⟩ | ⟨hop | hop | hop, hvar | hvar⟩⟩
    · exact ⟨.isValid, spells_iff_fields.2 ⟨hrsv, hvar, hop, congrArg BitVec.toInt hzero⟩⟩
    · exact ⟨.encCaesar _, spells_iff_fields.2 ⟨hrsv, hvar, hop, rfl⟩⟩
    · exact ⟨.decCaesar _, spells_iff_fields.2 ⟨hrsv, hvar, hop, rfl⟩⟩
    · exact ⟨.encDoubleRev _, spells_iff_fields.2 ⟨hrsv, hvar, hop, rfl⟩⟩
    · exact ⟨.encDoubleVf _, spells_iff_fields.2 ⟨hrsv, hvar, hop, rfl⟩⟩
    · exact ⟨.decDoubleRev _, spells_iff_fields.2 ⟨hrsv, hvar, hop, rfl⟩⟩
    · exact ⟨.decDoubleVf _, spells_iff_fields.2 ⟨hrsv, hvar, hop, rfl⟩⟩
    · exact ⟨.mapTableRev _, spells_iff_fields.2 ⟨hrsv, hvar, hop, rfl⟩⟩
    · exact ⟨.mapTableVf _, spells_iff_fields.2 ⟨hrsv, hvar, hop, rfl⟩⟩

theorem decode_error_iff_not_spells (w : Word) : (∃ e, decode w = .error e) ↔ ¬ ∃ i, Spells w i := by
  simp only [← decode_eq_ok_iff_spells]
  cases decode w <;> simp

/-- Where RSV is 0, the other conditions of R65 hold exactly of the fields of no row. -/
theorem illegal_iff_no_row : ∀ (op : BitVec 3) (var : BitVec 2) (shiftZero : Bool),
    (op = 0 ∨ op = 7 ∨ var = 3 ∨ ((op = 1 ∨ op = 2 ∨ op = 3) ∧ var ≠ 0) ∨
      ((op = 4 ∨ op = 5 ∨ op = 6) ∧ var = 0) ∨ (op = 1 ∧ shiftZero = false)) ↔
    ¬ ((op = 1 ∧ var = 0 ∧ shiftZero = true) ∨ ((op = 2 ∨ op = 3) ∧ var = 0) ∨
      ((op = 4 ∨ op = 5 ∨ op = 6) ∧ (var = 1 ∨ var = 2))) := by
  decide

/-- The six conditions of R65. -/
theorem decode_error_iff_illegal (w : Word) : (∃ e, decode w = .error e) ↔
    opField w = 0 ∨ opField w = 7 ∨ rsvField w ≠ 0 ∨ varField w = 3 ∨
      ((opField w = 1 ∨ opField w = 2 ∨ opField w = 3) ∧ varField w ≠ 0) ∨
      ((opField w = 4 ∨ opField w = 5 ∨ opField w = 6) ∧ varField w = 0) ∨
      (opField w = 1 ∧ shiftField w ≠ 0) := by
  have hfields := illegal_iff_no_row (opField w) (varField w) (decide (shiftField w = 0))
  rw [decide_eq_true_eq, decide_eq_false_iff_not] at hfields
  rw [decode_error_iff_not_spells, exists_spells_iff, not_and, ← hfields]
  by_cases hrsv : rsvField w = 0
  · simp only [hrsv, ne_eq, not_true, false_or, forall_const]
  · exact iff_of_true (fun h => absurd h hrsv) (.inr (.inr (.inl hrsv)))

/-- Issuing a word that spells no command: the error entry of ILLEGAL_COMMAND, and CMD holds the word (R130, R159). -/
theorem issue_of_decode_error {w : Word} {s : State} (h : ∃ e, decode w = .error e) :
    issue w s = .next (raise .illegalCommand (clearOutputs { s with cmd := w, reply := .done })) := by
  obtain ⟨e, he⟩ := h
  rcases issue_cases w s with ⟨i, hi, -⟩ | ⟨-, -, hissue⟩
  · rw [he] at hi
    cases hi
  · exact hissue

/-! ### Character codes (R67) -/

theorem isUpper_iff (c : Byte) : isUpper c = true ↔ 0x41 ≤ c.toNat ∧ c.toNat ≤ 0x5A := by simp [isUpper]

theorem isLower_iff (c : Byte) : isLower c = true ↔ 0x61 ≤ c.toNat ∧ c.toNat ≤ 0x7A := by simp [isLower]

theorem isSpace_iff_toNat (c : Byte) : isSpace c = true ↔ c.toNat = 0x20 := by
  rw [isSpace_iff, ← BitVec.toNat_inj]
  rfl

theorem isLetter_iff (c : Byte) : isLetter c = true ↔ isUpper c = true ∨ isLower c = true := by
  simp [isLetter]

theorem accepted_iff (c : Byte) : accepted c = true ↔ isSpace c = true ∨ isLetter c = true := by
  simp [accepted, isLetter, or_assoc]

theorem idx_add_of_isUpper {c : Byte} (h : isUpper c = true) : (idx c).toNat + 0x41 = c.toNat := by
  obtain ⟨hlo, hhi⟩ := (isUpper_iff c).1 h
  rw [idx, if_pos h, BitVec.toNat_setWidth, BitVec.toNat_sub]
  change (256 - 0x41 + c.toNat) % 256 % 32 + 0x41 = c.toNat
  omega

theorem idx_add_of_isLower {c : Byte} (h : isLower c = true) : (idx c).toNat + 0x61 = c.toNat := by
  obtain ⟨hlo, hhi⟩ := (isLower_iff c).1 h
  have hupper : ¬ isUpper c = true := fun hup => by
    obtain ⟨-, hle⟩ := (isUpper_iff c).1 hup
    omega
  rw [idx, if_neg hupper, BitVec.toNat_setWidth, BitVec.toNat_sub]
  change (256 - 0x61 + c.toNat) % 256 % 32 + 0x61 = c.toNat
  omega

theorem toNat_upper (i : Index) : (upper i).toNat = 0x41 + i.toNat := by
  have hi := i.isLt
  rw [upper, BitVec.toNat_add, BitVec.toNat_setWidth]
  change (0x41 + i.toNat % 256) % 256 = 0x41 + i.toNat
  omega

theorem toNat_lower (i : Index) : (lower i).toNat = 0x61 + i.toNat := by
  have hi := i.isLt
  rw [lower, BitVec.toNat_add, BitVec.toNat_setWidth]
  change (0x61 + i.toNat % 256) % 256 = 0x61 + i.toNat
  omega

theorem idx_lower {i : Index} (h : i.toNat < 26) : idx (lower i) = i := by
  have hidx := idx_add_of_isLower (isLower_lower i h)
  rw [toNat_lower] at hidx
  exact BitVec.eq_of_toNat_eq (by omega)

/-! ### The statements -/

/-- Settles O2: the word of a well-formed command spells it, and decode answers what a word spells. -/
theorem decodeOfEncodeIsTheCommand : Obligations.DecodeOfEncodeIsTheCommand :=
  fun _ hwf => decode_of_spells (spells_iff_encode.2 ⟨hwf, rfl⟩)

/-- Settles O3: decode answers only what the word spells, and only the encoding of a command spells it. -/
theorem encodeOfDecodeIsTheWord : Obligations.EncodeOfDecodeIsTheWord := by
  intro w i h
  obtain ⟨hwf, hencode⟩ := spells_iff_encode.1 (spells_of_decode h)
  exact ⟨hencode, hwf⟩

/-- Settles O4: `decode_eq_ok_iff_mask` at each row with a shift; of IS_VALID the whole word is fixed. -/
theorem opcodeMapIsExact : Obligations.OpcodeMapIsExact := by
  intro w
  have hisValid : decode w = .ok .isValid ↔ w &&& 0xFFFF = 0x0001 := by
    have hall : w &&& 0xFFFF = w := BitVec.and_allOnes
    rw [hall, decode_eq_ok_iff_spells, spells_iff_encode]
    exact ⟨fun ⟨_, h⟩ => h.symm, fun h => ⟨rfl, h.symm⟩⟩
  exact ⟨hisValid, fun k => decode_eq_ok_iff_mask w (.encCaesar k), fun k => decode_eq_ok_iff_mask w (.decCaesar k),
    fun k => decode_eq_ok_iff_mask w (.encDoubleRev k), fun k => decode_eq_ok_iff_mask w (.encDoubleVf k),
    fun k => decode_eq_ok_iff_mask w (.decDoubleRev k), fun k => decode_eq_ok_iff_mask w (.decDoubleVf k),
    fun k => decode_eq_ok_iff_mask w (.mapTableRev k), fun k => decode_eq_ok_iff_mask w (.mapTableVf k)⟩

/-- Settles O5: the fields of no row, and the error entry that an issue without a command makes. -/
theorem illegalWordsEndWithIllegalCommand : Obligations.IllegalWordsEndWithIllegalCommand := by
  refine fun w s rest => ⟨decode_error_iff_illegal w, fun hpending hillegal => ?_⟩
  rw [step_of_pending hpending, hostAction, issue_of_decode_error hillegal]
  rfl

/-- Settles O1: each word by running the decoder on it. -/
theorem referenceWordsDecode : Obligations.ReferenceWordsDecode := by
  refine ⟨?_, ?_, ?_, ?_, ?_, ?_, ?_, ?_, ?_, ?_, ?_, ?_, ?_⟩ <;> decide

/-- Settles O6: the classes are disjoint ranges of codes, and each operand function adds or takes away a range's start. -/
theorem characterClassesAndIndices : Obligations.CharacterClassesAndIndices := by
  refine ⟨fun c => ?_, fun i hi => ⟨toNat_upper i, toNat_lower i, (idx_upper i).1, idx_lower hi⟩⟩
  have hspace := isSpace_iff_toNat c
  have hupper := isUpper_iff c
  have hlower := isLower_iff c
  refine ⟨hspace, hupper, hlower, isLetter_iff c, accepted_iff c, ?_, ?_, ?_, idx_add_of_isUpper, idx_add_of_isLower⟩
  · rw [hspace, hupper]
    omega
  · rw [hspace, hlower]
    omega
  · rw [hupper, hlower]
    omega

end Sys2Proof.Machine
end

section
/-! PROOFS. Family 30_encoding.md, the host's actions: that one write of IN stores one element (R71), that the
pseudo-instructions LOADSTR and COPYBACK do what their actions do one after the other (R70), and that every step keeps
the values 26 to 31 out of the scratch (R68).

A pseudo-instruction is a list of host actions, so what it does is an induction over the list: a run of some first steps
goes on from the state that they leave (`core_run_add`), and the state that one position leaves has the rest of the list
to come. -/

namespace Sys2Proof.Machine

/-! ### Runs of the host's actions -/

theorem exists_step_eq_next (s : State) : ∃ t, step s = .next t := by
  rcases step_cases s with ⟨-, e⟩ | ⟨a, rest, -, e⟩
  · exact ⟨s, e⟩
  · obtain ⟨t, ht, -⟩ := hostAction_results a (takeAction rest s)
    exact ⟨t, e.trans ht⟩

/-- A run of `m` steps goes on from the state that it answers. -/
theorem core_run_add {m : Nat} (n : Nat) {s t : State} (h : Sys2Proof.core.run m s = .next t) :
    Sys2Proof.core.run (m + n) s = Sys2Proof.core.run n t := by
  induction m generalizing s with
  | zero =>
    obtain rfl : s = t := Host.Outcome.next.inj h
    rw [Nat.zero_add]
  | succ m ih =>
    obtain ⟨u, hu⟩ := exists_step_eq_next s
    rw [core_run_succ m hu] at h
    rw [Nat.add_right_comm, core_run_succ (m + n) hu, ih h]

/-- The step that writes an element of IN (R30, R71). -/
theorem step_of_writeIn {s : State} {p : Nat} {v : Byte} {rest : List HostAction} (h : s.pending = .writeIn p v :: rest)
    (hp : p < s.maxLen) :
    step s = .next { s with
      inBuf := Memory.write s.inBuf p v, pending := rest, freeCount := s.freeCount + 1, reply := .done } := by
  rw [step_of_pending h]
  exact congrArg Host.Outcome.next (if_pos hp)

/-- The step that writes a number up to MAXLEN to LEN, which such a number always fits (R5, R14, R71). -/
theorem step_of_writeLen {s : State} {n : Nat} {rest : List HostAction} (h : s.pending = .writeLen n :: rest)
    (hn : n ≤ s.maxLen) :
    step s = .next { s with len := n, pending := rest, freeCount := s.freeCount + 1, reply := .done } :=
  hostWritesTheLength s n rest h (hn.trans_lt Nat.lt_log2_self)

/-! ### LOADSTR (R70) -/

theorem writeInFrom_eq_map (p : Nat) (str : List Byte) :
    writeInFrom p str = (List.range str.length).map fun q => .writeIn (p + q) (str.getD q 0) := by
  induction str generalizing p with
  | nil => rfl
  | cons c cs ih =>
    rw [writeInFrom, ih, List.length_cons, List.range_succ_eq_map, List.map_cons, List.map_map]
    simp [Function.comp_def, Nat.add_assoc, Nat.add_comm 1]

/-- The writes of a string, run: the string stands in IN, and nothing else of the engine has changed. -/
theorem run_writeInFrom (str : List Byte) (p : Nat) {s : State} {rest : List HostAction}
    (hfits : p + str.length ≤ s.maxLen) (hs : s.pending = writeInFrom p str ++ rest) :
    ∃ t : State, Sys2Proof.core.run str.length s = .next t ∧
      t = { s with
        inBuf := Memory.writeString s.inBuf p str, pending := rest, freeCount := s.freeCount + str.length,
        reply := t.reply } := by
  induction str generalizing p s with
  | nil => exact ⟨s, rfl, by rw [← show s.pending = rest from hs]; rfl⟩
  | cons c cs ih =>
    rw [List.length_cons] at hfits ⊢
    have hstep := step_of_writeIn hs (by omega)
    obtain ⟨t, hrun, ht⟩ := ih (p + 1) (s := { s with
      inBuf := Memory.write s.inBuf p c, pending := writeInFrom (p + 1) cs ++ rest, freeCount := s.freeCount + 1,
      reply := .done }) (show p + 1 + cs.length ≤ s.maxLen by omega) rfl
    refine ⟨t, (core_run_succ _ hstep).trans hrun, ht.trans ?_⟩
    rw [Nat.add_comm cs.length, ← Nat.add_assoc]
    rfl

/-! ### COPYBACK (R70) -/

/-- Position `p` of a copy of `item`, run from `s` to its end in `t`: after `k` steps `item p` is read, the answer is a
byte, the next action writes that byte to IN at `p`, and it stands there at the end. -/
def CopiesByte (item : Nat → ResultItem) (s t : State) (k p : Nat) : Prop :=
  ∃ v u c, Sys2Proof.core.run k s = .next v ∧ v.pending.head? = some (.read (.res (item p))) ∧
    step v = .next u ∧ u.pending.head? = some (.writeIn p c) ∧ u.reply = .value c.toNat ∧
    Memory.read t.inBuf p = some c

/-- A position of a run is that position of a longer run that comes to it. -/
theorem CopiesByte.of_run {item : Nat → ResultItem} {s s' t : State} {m k p : Nat}
    (hrun : Sys2Proof.core.run m s = .next s') (h : CopiesByte item s' t k p) : CopiesByte item s t (m + k) p := by
  obtain ⟨v, u, c, hv, hrest⟩ := h
  exact ⟨v, u, c, (core_run_add k hrun).trans hv, hrest⟩

/-- The reads and writes of a copy, run: every position is copied, and nothing else of the engine has changed. -/
theorem run_copyFrom {item : Nat → ResultItem} (hitem : item ∈ [ResultItem.out1, ResultItem.out2, ResultItem.outp])
    (n p : Nat) {s : State} {rest : List HostAction} (hfits : p + n ≤ s.maxLen)
    (hs : s.pending = copyFrom item s n p ++ rest) :
    ∃ t : State, Sys2Proof.core.run (2 * n) s = .next t ∧
      t = { s with inBuf := t.inBuf, pending := rest, freeCount := s.freeCount + 2 * n, reply := t.reply } ∧
      (∀ j, j < n → CopiesByte item s t (2 * j) (p + j)) ∧
      ∀ q, q < p ∨ p + n ≤ q → Memory.read t.inBuf q = Memory.read s.inBuf q := by
  induction n generalizing p s with
  | zero =>
    refine ⟨s, rfl, ?_, fun j hj => absurd hj (Nat.not_lt_zero j), fun _ _ => rfl⟩
    rw [← show s.pending = rest from hs]
    rfl
  | succ n ih =>
    obtain ⟨c, u, t₁, hread, hu, hwrite, hreply, ht₁, hframe, hpending'⟩ := copyFrom_step hitem (by omega) hs
    have hrun₁ : Sys2Proof.core.run 2 s = .next t₁ := (core_run_succ 1 hu).trans (core_run_succ 0 ht₁)
    have hmax : t₁.maxLen = s.maxLen := by rw [hframe]
    have hin : t₁.inBuf = Memory.write s.inBuf p c := by rw [hframe]
    obtain ⟨t, hrun, ht, hcopied, hkept⟩ := ih (p + 1) (by omega) hpending'
    refine ⟨t, ?_, ?_, ?_, ?_⟩
    · rw [Nat.mul_succ, Nat.add_comm, core_run_add _ hrun₁, hrun]
    · rw [ht, hframe, Nat.mul_succ, Nat.add_comm (2 * n), ← Nat.add_assoc]
    · intro j hj
      cases j with
      | zero =>
        refine ⟨s, u, c, rfl, hread, hu, hwrite, hreply, ?_⟩
        rw [Nat.add_zero, hkept p (.inl (Nat.lt_succ_self p)), hin, read_write_same]
      | succ j =>
        have hj' := (hcopied j (by omega)).of_run hrun₁
        rwa [Nat.add_right_comm, Nat.add_comm 2] at hj'
    · intro q hq
      rw [hkept q (by omega), hin, read_write_other _ _ (by omega)]

/-- The first action of COPYBACK: OUTLEN is read; the copy of that many elements comes next, then the write of LEN. -/
theorem copyBack_step {item : Nat → ResultItem} {s : State} {rest : List HostAction}
    (hs : s.pending = copyBack item s ++ rest) :
    ∃ u : State, s.pending.head? = some (.read (.res .outlen)) ∧ step s = .next u ∧
      u = { s with pending := u.pending, freeCount := s.freeCount + 1, reply := .value s.outlen } ∧
      u.pending = copyFrom item u s.outlen 0 ++ (.writeLen s.outlen :: rest) := by
  let q : List HostAction :=
    copyFrom item { s with freeCount := s.freeCount + 1 } s.outlen 0 ++ (.writeLen s.outlen :: rest)
  have hq : s.pending = .read (.res .outlen) :: q := by
    rw [hs, copyBack, List.cons_append, List.append_assoc, List.singleton_append]
  exact ⟨{ s with pending := q, freeCount := s.freeCount + 1, reply := .value s.outlen }, by rw [hq]; rfl,
    step_of_pending hq, rfl,
    congrArg (· ++ _) (copyFrom_hostFields item s.inBuf s.len q (.value s.outlen) s.outlen
      { s with freeCount := s.freeCount + 1 } 0).symm⟩

/-! ### The scratch (R68) -/

/-- Scratch that is kept is kept legal. -/
theorem ScratchIndicesLegal.of_kept {s : State} (hs : ScratchIndicesLegal s) (t : State) (hk : t.kLatch = s.kLatch)
    (hS : t.sTab = s.sTab) (hT : t.tTab = s.tTab) (hfwd : t.fwd = s.fwd) (hbwd : t.bwd = s.bwd) :
    ScratchIndicesLegal t := by
  rwa [ScratchIndicesLegal, hk, hS, hT, hfwd, hbwd]

theorem raise_scratch (e : ErrorName) {s : State} (hs : ScratchIndicesLegal s) : ScratchIndicesLegal (raise e s) :=
  hs.of_kept _ rfl rfl rfl rfl rfl

theorem clearOutputs_scratch {s : State} (hs : ScratchIndicesLegal s) : ScratchIndicesLegal (clearOutputs s) :=
  hs.of_kept _ rfl rfl rfl rfl rfl

/-- A legal shift is latched as a letter index. -/
theorem latchShift_scratch {k : Int} (hk : ShiftLegal k) {s : State} (hs : ScratchIndicesLegal s) :
    ScratchIndicesLegal (latchShift k s) := by
  obtain ⟨-, htables⟩ := hs
  have hlatched := latched_toNat k hk
  obtain ⟨-, hle⟩ := hk
  have hlt : (BitVec.ofInt 5 k).toNat < 26 := by omega
  exact ⟨hlt, htables⟩

theorem builtTables_scratch {var : Variant} (hvar : var ≠ .none) {s : State} (hs : ScratchIndicesLegal s) :
    ScratchIndicesLegal (buildT var (buildS s)) := by
  obtain ⟨hk, -, -, hfwd, hbwd⟩ := hs
  have hT := indexTable_builtT hvar s
  rw [ScratchIndicesLegal, buildT_kLatch, buildT_sTab, buildT_fwd, buildT_bwd]
  exact ⟨hk, indexTable_shiftedAlphabet s.kLatch, hT, hfwd, hbwd⟩

theorem writeMaps_scratch {s : State} (hs : ScratchIndicesLegal s) : ScratchIndicesLegal (writeMaps s) := by
  obtain ⟨hk, hS, hT, -, -⟩ := hs
  exact ⟨hk, hS, hT, indexTable_pairedMap hT, indexTable_pairedMap hS⟩

/-- A double cipher keeps the scratch legal when what follows the table build does. -/
theorem doubleBody_scratch {var : Variant} (hvar : var ≠ .none) {strings : State → State}
    (hstrings : ∀ u : State, ScratchIndicesLegal u → ScratchIndicesLegal (strings u)) {s : State}
    (hs : ScratchIndicesLegal s) : ScratchIndicesLegal (buildMaps strings (buildT var (buildS s))) := by
  rw [buildMaps_builtTables hvar]
  exact hstrings _ (writeMaps_scratch (builtTables_scratch hvar hs))

theorem encDoubleBody_scratch {var : Variant} (hvar : var ≠ .none) {s : State} (hs : ScratchIndicesLegal s) :
    ScratchIndicesLegal (encDoubleBody var s) :=
  doubleBody_scratch (strings := encDoubleStrings) hvar (fun _ hu => hu.of_kept _ rfl rfl rfl rfl rfl) hs

theorem decDoubleBody_scratch {var : Variant} (hvar : var ≠ .none) {s : State} (hs : ScratchIndicesLegal s) :
    ScratchIndicesLegal (decDoubleBody var s) :=
  doubleBody_scratch (strings := decDoubleStrings) hvar (fun _ hu => hu.of_kept _ rfl rfl rfl rfl rfl) hs

/-- A cipher command keeps the scratch legal when its body does: the shift is latched only after the range check. -/
theorem cipherCommand_scratch {k : Int} {body : State → State}
    (hbody : ∀ u : State, ScratchIndicesLegal u → ScratchIndicesLegal (body u)) {s : State}
    (hs : ScratchIndicesLegal s) : ScratchIndicesLegal (cipherCommand k body s) := by
  have hscanned : ScratchIndicesLegal { clearOutputs s with pos := s.len } := hs.of_kept _ rfl rfl rfl rfl rfl
  rcases cipherCommand_cases k body s with ⟨-, e⟩ | ⟨-, -, e⟩ | ⟨-, -, -, e⟩ | ⟨-, hk, -, e⟩ <;> rw [e]
  · exact raise_scratch _ (clearOutputs_scratch hs)
  · exact raise_scratch _ (clearOutputs_scratch hs)
  · exact raise_scratch _ hscanned
  · exact hbody _ (latchShift_scratch hk hscanned)

/-- The end of MAP_TABLE keeps the scratch legal, whatever the elements of TBL are. -/
theorem storeTbl_scratch (codes : List Byte) {s : State} (hs : ScratchIndicesLegal s) :
    ScratchIndicesLegal (complete outvVT 0 (storeTbl codes s)) := hs.of_kept _ rfl rfl rfl rfl rfl

theorem mapTableCommand_scratch (k : Int) {var : Variant} (hvar : var ≠ .none) {s : State}
    (hs : ScratchIndicesLegal s) : ScratchIndicesLegal (mapTableCommand k var s) := by
  rcases mapTableCommand_cases k var s with ⟨-, e⟩ | ⟨hk, e⟩ <;> rw [e]
  · exact raise_scratch _ (clearOutputs_scratch hs)
  · rw [mapTableBody, mapTableRows]
    exact storeTbl_scratch _ (builtTables_scratch hvar (latchShift_scratch hk (clearOutputs_scratch hs)))

theorem isValidCommand_scratch {s : State} (hs : ScratchIndicesLegal s) :
    ScratchIndicesLegal (messageCommand isValidBody s) := by
  rcases messageCommand_cases isValidBody s with ⟨-, e⟩ | ⟨-, e⟩ <;> rw [e]
  · exact raise_scratch _ (clearOutputs_scratch hs)
  · exact (clearOutputs_scratch hs).of_kept _ rfl rfl rfl rfl rfl

/-- Every command keeps the scratch legal. -/
theorem exec_scratch (i : Instr) {s : State} (hs : ScratchIndicesLegal s) :
    ∃ t, exec i s = .next t ∧ ScratchIndicesLegal t := by
  cases i with
  | isValid => exact ⟨_, rfl, isValidCommand_scratch hs⟩
  | encCaesar k =>
    exact ⟨_, rfl, cipherCommand_scratch (body := encCaesarBody) (fun _ hu => hu.of_kept _ rfl rfl rfl rfl rfl) hs⟩
  | decCaesar k =>
    exact ⟨_, rfl, cipherCommand_scratch (body := decCaesarBody) (fun _ hu => hu.of_kept _ rfl rfl rfl rfl rfl) hs⟩
  | encDoubleRev k =>
    exact ⟨_, rfl, cipherCommand_scratch (fun _ => encDoubleBody_scratch (var := .reversed) nofun) hs⟩
  | encDoubleVf k =>
    exact ⟨_, rfl, cipherCommand_scratch (fun _ => encDoubleBody_scratch (var := .vowelFirst) nofun) hs⟩
  | decDoubleRev k =>
    exact ⟨_, rfl, cipherCommand_scratch (fun _ => decDoubleBody_scratch (var := .reversed) nofun) hs⟩
  | decDoubleVf k =>
    exact ⟨_, rfl, cipherCommand_scratch (fun _ => decDoubleBody_scratch (var := .vowelFirst) nofun) hs⟩
  | mapTableRev k => exact ⟨_, rfl, mapTableCommand_scratch k (var := .reversed) nofun hs⟩
  | mapTableVf k => exact ⟨_, rfl, mapTableCommand_scratch k (var := .vowelFirst) nofun hs⟩

theorem issue_scratch (w : Word) {s : State} (hs : ScratchIndicesLegal s) :
    ∃ t, issue w s = .next t ∧ ScratchIndicesLegal t := by
  have hissued : ScratchIndicesLegal { s with cmd := w, reply := .done } := hs.of_kept _ rfl rfl rfl rfl rfl
  rcases issue_cases w s with ⟨i, -, e⟩ | ⟨-, -, e⟩
  · rw [e]
    exact exec_scratch i hissued
  · exact ⟨_, e, raise_scratch _ (clearOutputs_scratch hissued)⟩

/-- An action of the host keeps the scratch legal: only an issue and a RESET write it. -/
theorem hostAction_scratch (a : HostAction) {s : State} (hs : ScratchIndicesLegal s) :
    ∃ t, hostAction a s = .next t ∧ ScratchIndicesLegal t := by
  by_cases hreset : a = .reset
  · subst hreset
    exact ⟨_, rfl, (scratchIndicesLegal_resetOf s.maxLen).of_kept (hostReset s) rfl rfl rfl rfl rfl⟩
  · by_cases hissue : ∃ w, a = .issue w
    · obtain ⟨w, rfl⟩ := hissue
      exact issue_scratch w hs
    · obtain ⟨t, ht, hframe⟩ := hostAction_onlyHostFieldsDiffer (not_exists.1 hissue) hreset s
      rw [OnlyHostFieldsDiffer] at hframe
      refine ⟨t, ht, ?_⟩
      rw [hframe]
      exact hs.of_kept _ rfl rfl rfl rfl rfl

/-! ### The statements -/

/-- Settles O38: the two ways of `WR IN[p], v`, in the state that has taken the action. -/
theorem hostWritesOneMessageElement : Obligations.HostWritesOneMessageElement := by
  refine fun s p v rest hpending => ⟨fun hp => ⟨_, step_of_writeIn hpending hp, rfl, ?_, fun q hq => ?_⟩, fun hp => ?_⟩
  · exact read_write_same s.inBuf p v
  · exact read_write_other s.inBuf v hq
  · rw [step_of_pending hpending]
    exact congrArg Host.Outcome.next (if_neg (Nat.not_lt.2 hp))

/-- Settles O50: by the host's action of the step; a command by its tables, RESET because its scratch is zeros. -/
theorem stepKeepsScratchIndicesLegal : Obligations.StepKeepsScratchIndicesLegal := by
  intro s t hs hstep
  rcases step_cases s with ⟨-, e⟩ | ⟨a, rest, -, e⟩
  · obtain rfl : s = t := by simpa [e] using hstep
    exact hs
  · obtain ⟨u, hu, hlegal⟩ := hostAction_scratch a (s := takeAction rest s) hs
    obtain rfl : u = t := by simpa [e, hu] using hstep
    exact hlegal

/-- Settles O51: the writes of the text one after the other, then that of its length, which fits LEN. -/
theorem loadStrStoresTheText : Obligations.LoadStrStoresTheText := by
  refine fun str => ⟨?_, fun s rest hfits hpending => ?_⟩
  · simp [loadStr, writeInFrom_eq_map]
  · rw [loadStr, List.append_assoc] at hpending
    obtain ⟨u, hrun, hu⟩ := run_writeInFrom str 0 (by omega) hpending
    have hstep := step_of_writeLen (s := u) (n := str.length) (rest := rest) (by rw [hu]; rfl) (by rw [hu]; exact hfits)
    refine ⟨_, (core_run_add 1 hrun).trans (core_run_succ 0 hstep), ?_, ?_⟩
    · rw [hu]
    · rw [hu]
      exact stringStored_writeString s.inBuf str _ fun p hp => (List.getD_eq_getElem str 0 hp).symm

/-- Settles O52: the read of OUTLEN, the copy of its positions, and the write of LEN, one after the other. -/
theorem copyBackMovesAnOutputIntoTheMessage : Obligations.CopyBackMovesAnOutputIntoTheMessage := by
  intro item s rest hitem hfits hpending
  obtain ⟨u, hread, hu, hframe, hcopy⟩ := copyBack_step hpending
  have hmax : u.maxLen = s.maxLen := by rw [hframe]
  have hin : u.inBuf = s.inBuf := by rw [hframe]
  obtain ⟨t, hrun, ht, hcopied, hkept⟩ := run_copyFrom hitem s.outlen 0 (by omega) hcopy
  have hlast : step t =
      .next { t with len := s.outlen, pending := rest, freeCount := t.freeCount + 1, reply := .done } :=
    step_of_writeLen (by rw [ht]) (by rw [ht, hmax]; exact hfits)
  have hone : Sys2Proof.core.run 1 s = .next u := core_run_succ 0 hu
  have hall : Sys2Proof.core.run (1 + (2 * s.outlen + 1)) s =
      .next { t with len := s.outlen, pending := rest, freeCount := t.freeCount + 1, reply := .done } :=
    calc Sys2Proof.core.run (1 + (2 * s.outlen + 1)) s
      _ = Sys2Proof.core.run (2 * s.outlen + 1) u := core_run_add _ hone
      _ = Sys2Proof.core.run 1 t := core_run_add 1 hrun
      _ = _ := core_run_succ 0 hlast
  rw [Nat.add_comm] at hall
  refine ⟨hread, ⟨u, hu, by rw [hframe]⟩, _, hall, ?_, fun p hp => ?_, fun p hp => ?_⟩
  · have hcount : t.freeCount + 1 = s.freeCount + 2 * s.outlen + 2 := by
      rw [ht, hframe]
      change s.freeCount + 1 + 2 * s.outlen + 1 = s.freeCount + 2 * s.outlen + 2
      omega
    rw [hcount, ht, hframe]
  · have hp' := (hcopied p hp).of_run hone
    rw [Nat.zero_add, Nat.add_comm] at hp'
    exact hp'
  · rw [← hin]
    exact hkept p (.inr (by omega))

end Sys2Proof.Machine
end

section
/-! PROOFS. Family 40_validation.md: the accepted characters (R80), and that the case of the message's letters does not
matter (R84).

A letter shows a command the same glyph as its other case: no space, accepted, and the same letter index. So two messages
that differ in case only are one message to every command (`exec_sameResults`). -/

namespace Sys2Proof.Machine

/-! ### The glyph of a letter (R67, R84) -/

theorem isSpace_eq_false_of_isLetter {c : Byte} (h : isLetter c = true) : isSpace c = false := by
  rw [isLetter_iff, isUpper_iff, isLower_iff] at h
  rw [Bool.eq_false_iff, ne_eq, isSpace_iff_toNat]
  omega

/-- All that a command sees of a letter is its index: its case is forgotten. -/
theorem glyph_of_isLetter {c : Byte} (h : isLetter c = true) : glyph c = (false, true, idx c) := by
  rw [glyph, isSpace_eq_false_of_isLetter h, (accepted_iff c).2 (.inr h)]

/-! ### Messages that show the same glyphs -/

/-- The glyphs of a message, position by position. -/
theorem glyphs_congr {s t : State} (hlen : s.len = t.len)
    (h : ∀ p, p < s.len → glyph (inByte s p) = glyph (inByte t p)) :
    (readMessage s).map glyph = (readMessage t).map glyph := by
  rw [readMessage, readMessage, List.map_map, List.map_map, ← hlen]
  exact List.map_congr_left fun p hp => h p (List.mem_range.1 hp)

/-! ### The accepted codes (R80) -/

theorem accepted_iff_toNat (c : Byte) : accepted c = true ↔
    c.toNat = 0x20 ∨ (0x41 ≤ c.toNat ∧ c.toNat ≤ 0x5A) ∨ (0x61 ≤ c.toNat ∧ c.toNat ≤ 0x7A) := by
  rw [accepted_iff, isLetter_iff, isSpace_iff_toNat, isUpper_iff, isLower_iff]

/-- The accepted codes in rising order: the space, the 26 upper-case and the 26 lower-case letters. -/
theorem filter_accepted_range :
    ((List.range 256).filter fun n => accepted (BitVec.ofNat 8 n)) =
      0x20 :: (List.range' 0x41 26 ++ List.range' 0x61 26) := by decide +kernel

/-! ### The statements -/

/-- Settles O31: at each position the characters are equal or letters of one index, so their glyphs are equal. -/
theorem caseOfInputIsIgnored : Obligations.CaseOfInputIsIgnored := by
  intro i s t hmax hlen hchars
  refine exec_sameResults i ⟨hmax, glyphs_congr hlen fun p hp => ?_⟩
  rcases hchars p hp with heq | ⟨hs, ht, hidx⟩
  · rw [heq]
  · rw [glyph_of_isLetter hs, glyph_of_isLetter ht, hidx]

/-- Settles O7: the three classes by their codes, which are 1 + 26 + 26. -/
theorem acceptedCodes : Obligations.AcceptedCodes := by
  refine ⟨accepted_iff_toNat, ?_⟩
  rw [filter_accepted_range, List.length_cons, List.length_append, List.length_range', List.length_range']

end Sys2Proof.Machine
end

section
/-! PROOFS. Family 41_caesar_shift_stage.md: the Euclidean remainder (R90), that the two index shifts undo each other (R91,
R92), and that stage-1 decryption undoes stage-1 encryption up to case (R95).

The shifts are the remainder on integers (`toNat_shiftForward`, `toNat_shiftBackward`), so a fact about them is one about
`emod26`, and each of those rests on the remainder being unique (`emod26_eq_of_dvd_sub`). -/

namespace Sys2Proof.Machine

/-! ### The remainder (R90) -/

theorem emod26_nonneg (a : Int) : 0 ≤ emod26 a := Int.emod_nonneg a (by decide)

theorem emod26_le (a : Int) : emod26 a ≤ 25 := Int.le_of_lt_add_one (Int.emod_lt_of_pos a (by decide))

theorem dvd_sub_emod26 (a : Int) : (26 : Int) ∣ a - emod26 a := Int.dvd_self_sub_emod

theorem emod26_eq_emod26_iff {a b : Int} : emod26 a = emod26 b ↔ (26 : Int) ∣ b - a := Int.modEq_iff_dvd

theorem emod26_of_index {a : Int} (h0 : 0 ≤ a) (h25 : a ≤ 25) : emod26 a = a :=
  Int.emod_eq_of_lt h0 (Int.lt_add_one_of_le h25)

/-- The remainder is the only number of 0 to 25 that differs from `a` by a multiple of 26. -/
theorem emod26_eq_of_dvd_sub {a r : Int} (h0 : 0 ≤ r) (h25 : r ≤ 25) (h : (26 : Int) ∣ a - r) : emod26 a = r :=
  (emod26_eq_emod26_iff.2 h).symm.trans (emod26_of_index h0 h25)

/-! ### The index shifts on integers (R91, R92, R96) -/

/-- Five bits hold every remainder. -/
theorem toNat_ofInt_emod26 (a : Int) : ((BitVec.ofInt 5 (emod26 a)).toNat : Int) = emod26 a := by
  have h0 := emod26_nonneg a
  have h25 := emod26_le a
  rw [BitVec.toNat_ofInt]
  omega

theorem toNat_shiftForward (a k : Index) : ((shiftForward a k).toNat : Int) = emod26 (a.toNat + k.toNat) :=
  toNat_ofInt_emod26 _

theorem toNat_shiftBackward (a k : Index) : ((shiftBackward a k).toNat : Int) = emod26 (a.toNat - k.toNat) :=
  toNat_ofInt_emod26 _

/-- R92: `(a + k) - k` is `a`. -/
theorem shiftBackward_shiftForward {a : Index} (ha : a.toNat < 26) (k : Index) :
    shiftBackward (shiftForward a k) k = a := by
  apply BitVec.eq_of_toNat_eq
  zify
  rw [toNat_shiftBackward, toNat_shiftForward]
  refine emod26_eq_of_dvd_sub (by omega) (by omega) ?_
  have h := dvd_sub_emod26 (a.toNat + k.toNat)
  omega

/-- R92: `(a - k) + k` is `a`. -/
theorem shiftForward_shiftBackward {a : Index} (ha : a.toNat < 26) (k : Index) :
    shiftForward (shiftBackward a k) k = a := by
  apply BitVec.eq_of_toNat_eq
  zify
  rw [toNat_shiftForward, toNat_shiftBackward]
  refine emod26_eq_of_dvd_sub (by omega) (by omega) ?_
  have h := dvd_sub_emod26 (a.toNat - k.toNat)
  omega

/-- R91: a shift of 1 to 25 is no multiple of 26, so a forward shift fixes no index. -/
theorem shiftForward_ne {k : Index} (h1 : 1 ≤ k.toNat) (h25 : k.toNat ≤ 25) (a : Index) : shiftForward a k ≠ a := by
  intro hfix
  have hfwd := toNat_shiftForward a k
  have hdvd := dvd_sub_emod26 (a.toNat + k.toNat)
  rw [← hfwd, hfix] at hdvd
  omega

/-- R92: `a - k` and `a + (26 - k)` differ by 26. -/
theorem shiftBackward_eq_shiftForward {k : Index} (h25 : k.toNat ≤ 25) (a : Index) :
    shiftBackward a k = shiftForward a (26 - k) := by
  have hsub : (26 - k).toNat = 26 - k.toNat := by bv_omega
  apply BitVec.eq_of_toNat_eq
  zify
  rw [toNat_shiftBackward, toNat_shiftForward, hsub, emod26_eq_emod26_iff]
  omega

/-! ### Stage 1, one character (R95) -/

/-- A space goes to a space and back; a letter goes to its shifted letter and back to itself, in lower case. -/
theorem decryptStage1_encryptStage1_singleton {c : Byte} (hc : accepted c = true) (k : Index) :
    decryptStage1 (encryptStage1 [c] k) k = lowercase [c] := by
  simp only [encryptStage1, decryptStage1, lowercase, List.map_cons, List.map_nil]
  cases hspace : isSpace c
  case true => rfl
  case false =>
    obtain ⟨hidx, hletter⟩ := idx_upper (shiftForward (idx c) k)
    simp [hletter, hidx, shiftBackward_shiftForward (idx_lt_of_accepted c hc hspace)]

/-! ### The statements -/

/-- Settles O10, character by character, by induction on the message. -/
theorem stageOneLeftInverse : Obligations.StageOneLeftInverse := by
  intro msg k hvalid _ _
  induction msg with
  | nil => rfl
  | cons c msg ih =>
    obtain ⟨hc, hmsg⟩ : accepted c = true ∧ isValidText msg = true := by simpa [isValidText] using hvalid
    calc decryptStage1 (encryptStage1 (c :: msg) k) k
      _ = decryptStage1 (encryptStage1 [c] k) k ++ decryptStage1 (encryptStage1 msg k) k := rfl
      _ = lowercase [c] ++ lowercase msg := by rw [decryptStage1_encryptStage1_singleton hc, ih hmsg]
      _ = lowercase (c :: msg) := rfl

/-- Settles O8: the uniqueness, of which the three cases are instances. -/
theorem euclideanRemainder : Obligations.EuclideanRemainder := by
  refine fun a => ⟨⟨emod26_nonneg a, emod26_le a, dvd_sub_emod26 a⟩,
    fun r h0 h25 h => (emod26_eq_of_dvd_sub h0 h25 h).symm, fun hlow hneg => ?_, emod26_of_index, fun hlow hhigh => ?_⟩
  · exact emod26_eq_of_dvd_sub (by omega) (by omega) (by omega)
  · exact emod26_eq_of_dvd_sub (by omega) (by omega) (by omega)

/-- Settles O9: the shifts are remainders on integers, and the rest follows from the remainder's uniqueness. -/
theorem indexShiftsAreInverse : Obligations.IndexShiftsAreInverse :=
  fun a k ha h1 h25 => ⟨toNat_shiftForward a k, toNat_shiftBackward a k, shiftBackward_shiftForward ha k,
    shiftForward_shiftBackward ha k, shiftForward_ne h1 h25 a, shiftBackward_eq_shiftForward h25 a⟩

end Sys2Proof.Machine
end

section
/-! PROOFS. Family 42_permutation_table_builder.md: what `BuildS` and `BuildT` write (R100, R103, R104), and that each
table holds every index exactly once (R106).

A table of 26 letter indices with no entry twice holds each of them (`existsUnique_entry`), so R106 is the injectivity
of three tables: two positions of S differ by less than 26, the reverse reads S at `25 - i`, and VFINV undoes ROM_VF. -/

namespace Sys2Proof.Machine

/-! ### The entries of the built tables on integers (R100, R104) -/

theorem shiftedAlphabet_getElem_toNat (k : Index) (i : Fin 26) :
    (shiftedAlphabet k)[i.val].toNat = (i.val + k.toNat) % 26 := by
  have hi : (BitVec.ofNat 5 i.val).toNat = i.val := by rw [BitVec.toNat_ofNat]; omega
  have hentry : ((shiftedAlphabet k)[i.val].toNat : Int) = emod26 (i.val + k.toNat) := by
    rw [shiftedAlphabet_getElem k i.val i.isLt, toNat_shiftForward, hi]
  exact Int.ofNat.inj hentry

/-- The constant ROM_VF against the order that R12 lists, as the reset state has it (R31). -/
theorem romVf_getElem_toNat (i : Fin 26) : (romVf[i.val].toNat : Int) = vowelFirst i.val := by
  obtain ⟨-, -, -, -, -, -, -, -, hromVf⟩ := resetStateIsAsListed
  exact hromVf i

/-- VFINV undoes the vowel-first order (R114). -/
theorem vowelFirstInverse_vowelFirst : ∀ i : Fin 26, vowelFirstInverse (vowelFirst i.val) = i.val := by decide

/-! ### No table holds an index twice -/

theorem injective_shiftedAlphabet (k : Index) : Function.Injective fun i : Fin 26 => (shiftedAlphabet k)[i.val] := by
  intro i j hij
  have hi := shiftedAlphabet_getElem_toNat k i
  have hj := shiftedAlphabet_getElem_toNat k j
  have hsame : (shiftedAlphabet k)[i.val] = (shiftedAlphabet k)[j.val] := hij
  rw [hsame] at hi
  omega

/-- Reading a table backwards only renames its positions. -/
theorem injective_reversedAlphabet {s : Table} (hs : Function.Injective fun i : Fin 26 => s[i.val]) :
    Function.Injective fun i : Fin 26 => (reversedAlphabet s)[i.val] := by
  have hrev : (fun i : Fin 26 => (reversedAlphabet s)[i.val]) = (fun i : Fin 26 => s[i.val]) ∘ Fin.rev := by
    funext i
    rw [reversedAlphabet_getElem s i.val i.isLt]
    have hpos : 25 - i.val = i.rev.val := by rw [Fin.val_rev]; omega
    simp only [hpos, Function.comp_apply]
  rw [hrev]
  exact hs.comp Fin.rev_injective

theorem injective_romVf : Function.Injective fun i : Fin 26 => romVf[i.val] := by
  intro i j hij
  have hsame : vowelFirst i.val = vowelFirst j.val := by
    rw [← romVf_getElem_toNat i, ← romVf_getElem_toNat j]
    exact congrArg (fun a : Index => (a.toNat : Int)) hij
  apply Fin.ext
  zify
  rw [← vowelFirstInverse_vowelFirst i, ← vowelFirstInverse_vowelFirst j, hsame]

/-! ### So each holds every index exactly once (R106) -/

/-- An entry of a table of letter indices, as one of its positions again: the map that R106 says is a bijection. -/
def entryPosition {t : Table} (ht : IndexTable t) (i : Fin 26) : Fin 26 := ⟨t[i.val].toNat, ht i⟩

@[simp] theorem entryPosition_val {t : Table} (ht : IndexTable t) (i : Fin 26) :
    (entryPosition ht i).val = t[i.val].toNat := rfl

/-- 26 different letter indices are all of them, each in one place. -/
theorem existsUnique_entry {t : Table} (ht : IndexTable t) (hinj : Function.Injective fun i : Fin 26 => t[i.val])
    {v : Nat} (hv : v < 26) : ∃! i : Fin 26, t[i.val].toNat = v := by
  have hentry : Function.Injective (entryPosition ht) := by
    intro i j hij
    have hval : t[i.val].toNat = t[j.val].toNat := by simpa only [entryPosition_val] using congrArg Fin.val hij
    exact hinj (BitVec.eq_of_toNat_eq hval)
  have hbij : Function.Bijective (entryPosition ht) := Finite.injective_iff_bijective.1 hentry
  simpa only [Fin.ext_iff, entryPosition_val] using hbij.existsUnique ⟨v, hv⟩

/-- The first entry of S is the shift itself. -/
theorem shiftedAlphabet_getElem_zero {k : Index} (h25 : k.toNat ≤ 25) : (shiftedAlphabet k)[0] = k := by
  apply BitVec.eq_of_toNat_eq
  calc (shiftedAlphabet k)[0].toNat
    _ = (0 + k.toNat) % 26 := shiftedAlphabet_getElem_toNat k 0
    _ = k.toNat := by omega

/-! ### The statements -/

/-- Settles O11: the frames are the builders' own, and the entries are those of the three tables. -/
theorem builtTablesAreTheAlphabets : Obligations.BuiltTablesAreTheAlphabets :=
  fun s _ _ => ⟨rfl, rfl, rfl, fun i => ⟨shiftedAlphabet_getElem_toNat s.kLatch i,
    reversedAlphabet_getElem s.sTab i.val i.isLt, romVf_getElem_toNat i⟩⟩

/-- Settles O12: the three tables hold letter indices and none twice, and S shows its shift in entry 0. -/
theorem builtTablesArePermutations : Obligations.BuiltTablesArePermutations := by
  refine ⟨fun k v _ _ hv => ?_, fun k l _ hk _ hl hne heq => hne ?_⟩
  · have hS := indexTable_shiftedAlphabet k
    have hinj := injective_shiftedAlphabet k
    exact ⟨existsUnique_entry hS hinj hv,
      existsUnique_entry (indexTable_reversedAlphabet hS) (injective_reversedAlphabet hinj) hv,
      existsUnique_entry indexTable_romVf injective_romVf hv⟩
  · rw [← shiftedAlphabet_getElem_zero hk, heq, shiftedAlphabet_getElem_zero hl]

end Sys2Proof.Machine
end

section
/-! PROOFS. Family 43_bijection_mapper.md: the check of R111 and the pairing of R110, that the maps of two permutations are
mutual inverses (R112), that no command reports TABLE_FAULT (R113), and the maps of the legal shifts in closed form (R114).

A table passes the check when it is one-to-one into the letter indices (`isPerm_iff_injective`), and the map from such a
table sends its entry at a position to the other table's entry there (`tableGet_pairedMap`). Both directions of R112 are
that one fact read twice, and each closed form of R114 is that fact at the position that a letter has in S or in ROM_VF. -/

namespace Sys2Proof.Machine

/-! ### The check of R111 -/

theorem toList_eq_map_finRange (a : Table) : a.toList = (List.finRange 26).map fun i : Fin 26 => a[i.val] := by
  apply List.ext_getElem
  · simp
  · simp

/-- The number of entries with the value `v` that the check counts is the number of positions that hold it. -/
theorem length_filter_toList_eq_card (a : Table) (v : Nat) :
    (a.toList.filter fun x => x.toNat == v).length = (Finset.univ.filter fun i : Fin 26 => a[i.val].toNat = v).card := by
  rw [toList_eq_map_finRange, List.filter_map, List.length_map]
  rfl

theorem isPerm_iff_existsUnique (a : Table) :
    isPerm a = true ↔ ∀ v, v < 26 → ∃! i : Fin 26, a[i.val].toNat = v := by
  simp only [isPerm, List.all_eq_true, List.mem_range, beq_iff_eq, length_filter_toList_eq_card,
    Fintype.existsUnique_iff_card_one]

/-- A permutation of 0..25 holds letter indices and none twice, and such a table is one: the position of each value, as a
function of the value, is one-to-one and so takes every position. -/
theorem isPerm_iff_injective (a : Table) :
    isPerm a = true ↔ IndexTable a ∧ Function.Injective fun i : Fin 26 => a[i.val] := by
  refine ⟨fun h => ?_, fun ⟨hindex, hinj⟩ => (isPerm_iff_existsUnique a).2 fun v hv => existsUnique_entry hindex hinj hv⟩
  have hunique (v : Fin 26) : ∃! i : Fin 26, a[i.val].toNat = v.val := (isPerm_iff_existsUnique a).1 h v.val v.isLt
  choose position hposition honly using hunique
  have hinj : Function.Injective position := by
    intro v w hvw
    apply Fin.ext
    rw [← hposition v, ← hposition w, hvw]
  have hindex : IndexTable a := by
    intro i
    obtain ⟨v, rfl⟩ := (Finite.injective_iff_surjective.1 hinj) i
    exact (hposition v).trans_lt v.isLt
  refine ⟨hindex, fun i j hij => ?_⟩
  have hsame : a[j.val].toNat = a[i.val].toNat := congrArg BitVec.toNat hij.symm
  exact (honly ⟨_, hindex i⟩ i rfl).trans (honly ⟨_, hindex i⟩ j hsame).symm

/-! ### The pairing of R110 -/

/-- The writes that build a map from a table with no entry twice go to different places. -/
theorem nodup_places_zip {src : Table} (dst : Table) (hinj : Function.Injective fun i : Fin 26 => src[i.val]) :
    ((src.toList.zip dst.toList).map fun q => q.1.toNat).Nodup := by
  have hplaces : (src.toList.zip dst.toList).map (fun q => q.1.toNat) = src.toList.map BitVec.toNat :=
    calc (src.toList.zip dst.toList).map (fun q => q.1.toNat)
      _ = ((src.toList.zip dst.toList).map Prod.fst).map BitVec.toNat := by rw [List.map_map]; rfl
      _ = src.toList.map BitVec.toNat := by rw [List.map_fst_zip (by simp)]
  rw [hplaces, toList_eq_map_finRange, List.map_map]
  exact (List.nodup_finRange 26).map ((BitVec.toNat_injective).comp hinj)

/-- R110: the map from a permutation sends the entry at each position to the other table's entry there. -/
theorem tableGet_pairedMap_getElem {src : Table} (hsrc : isPerm src = true) (dst : Table) (i : Fin 26) :
    tableGet (pairedMap src dst) src[i.val] = dst[i.val] := by
  obtain ⟨hindex, hinj⟩ := (isPerm_iff_injective src).1 hsrc
  have hmem : (src[i.val], dst[i.val]) ∈ src.toList.zip dst.toList :=
    List.mem_iff_getElem.2 ⟨i.val, by simp, by simp⟩
  have hwritten := writePairs_getElem_of_mem _ (List.replicate 26 0) _ hmem (nodup_places_zip dst hinj)
    (by simpa using hindex i)
  rw [tableGet_of_lt _ _ (hindex i)]
  exact (List.getElem_eq_iff _).2 hwritten

/-- The same for a position given as an index. -/
theorem tableGet_pairedMap {src : Table} (hsrc : isPerm src = true) (dst : Table) {i : Index} (hi : i.toNat < 26) :
    tableGet (pairedMap src dst) (tableGet src i) = tableGet dst i := by
  rw [tableGet_of_lt src i hi, tableGet_of_lt dst i hi]
  exact tableGet_pairedMap_getElem hsrc dst ⟨i.toNat, hi⟩

/-! ### The maps are inverse to each other (R112) -/

/-- Every letter stands somewhere in a permutation. -/
theorem exists_tableGet_eq {t : Table} (ht : isPerm t = true) {a : Index} (ha : a.toNat < 26) :
    ∃ i : Index, i.toNat < 26 ∧ tableGet t i = a := by
  obtain ⟨i, hi, -⟩ := (isPerm_iff_existsUnique t).1 ht a.toNat ha
  refine ⟨BitVec.ofNat 5 i.val, by rw [BitVec.toNat_ofNat]; omega, ?_⟩
  rw [tableGet_ofNat t i.val i.isLt]
  exact BitVec.eq_of_toNat_eq hi

/-- Both ways of R112: the letter at position `i` of one table goes to the letter at `i` of the other, and back. -/
theorem tableGet_pairedMap_pairedMap {src dst : Table} (hsrc : isPerm src = true) (hdst : isPerm dst = true) {a : Index}
    (ha : a.toNat < 26) : tableGet (pairedMap dst src) (tableGet (pairedMap src dst) a) = a := by
  obtain ⟨i, hi, rfl⟩ := exists_tableGet_eq hsrc ha
  rw [tableGet_pairedMap hsrc dst hi, tableGet_pairedMap hdst src hi]

/-- A map between permutations is one, since the map back undoes it. -/
theorem isPerm_pairedMap {src dst : Table} (hsrc : isPerm src = true) (hdst : isPerm dst = true) :
    isPerm (pairedMap src dst) = true := by
  obtain ⟨hindex, -⟩ := (isPerm_iff_injective dst).1 hdst
  refine (isPerm_iff_injective _).2 ⟨indexTable_pairedMap hindex, fun i j hij => ?_⟩
  have hback (l : Fin 26) : tableGet (pairedMap dst src) (pairedMap src dst)[l.val] = BitVec.ofNat 5 l.val := by
    rw [← tableGet_ofNat _ l.val l.isLt]
    exact tableGet_pairedMap_pairedMap hsrc hdst (by rw [BitVec.toNat_ofNat]; omega)
  have hsame : BitVec.ofNat 5 i.val = BitVec.ofNat 5 j.val := by
    rw [← hback i, ← hback j]
    exact congrArg (tableGet (pairedMap dst src)) hij
  bv_omega

/-! ### No result reports TABLE_FAULT (R113) -/

theorem ResultCodesLegal.err_ne_tableFault {s : State} (h : ResultCodesLegal s) :
    s.err ≠ ErrorName.code .tableFault := by
  obtain ⟨-, herr, -⟩ := h
  rcases herr with e | e | e | e <;> rw [e] <;> decide

/-! ### The maps of a legal shift (R114) -/

theorem tableGet_shiftedAlphabet (k : Index) {i : Index} (hi : i.toNat < 26) :
    tableGet (shiftedAlphabet k) i = shiftForward i k := by
  rw [tableGet_of_lt _ i hi, shiftedAlphabet_getElem k i.toNat hi, BitVec.ofNat_toNat, BitVec.setWidth_eq]

theorem tableGet_reversedAlphabet (s : Table) {i : Index} (hi : i.toNat < 26) :
    tableGet (reversedAlphabet s) i = tableGet s (25 - i) := by
  have hpos : (25 - i).toNat = 25 - i.toNat := by bv_omega
  rw [tableGet_of_lt _ i hi, reversedAlphabet_getElem s i.toNat hi, tableGet_of_lt s (25 - i) (by omega)]
  simp only [hpos]

theorem toNat_tableGet_romVf {i : Index} (hi : i.toNat < 26) : ((tableGet romVf i).toNat : Int) = vowelFirst i.toNat := by
  rw [tableGet_of_lt _ i hi]
  exact romVf_getElem_toNat ⟨i.toNat, hi⟩

/-- A letter stands in S at the letter `k` before it, so a map from S reads the other table there. -/
theorem tableGet_pairedMap_shiftedAlphabet (k : Index) (dst : Table) {a : Index} (ha : a.toNat < 26) :
    tableGet (pairedMap (shiftedAlphabet k) dst) a = tableGet dst (shiftBackward a k) := by
  obtain ⟨hS, -⟩ := isPerm_shiftedAlphabet k
  have hpos : (shiftBackward a k).toNat < 26 := (shift_lt a k).2
  have hletter : tableGet (shiftedAlphabet k) (shiftBackward a k) = a := by
    rw [tableGet_shiftedAlphabet k hpos, shiftForward_shiftBackward ha k]
  calc tableGet (pairedMap (shiftedAlphabet k) dst) a
    _ = tableGet (pairedMap (shiftedAlphabet k) dst) (tableGet (shiftedAlphabet k) (shiftBackward a k)) := by rw [hletter]
    _ = tableGet dst (shiftBackward a k) := tableGet_pairedMap hS dst hpos

/-- The position `25 - emod(a - k, 26)`, shifted by `k`. -/
theorem toNat_pairedMap_reversed (k : Index) {a : Index} (ha : a.toNat < 26) :
    ((tableGet (pairedMap (shiftedAlphabet k) (reversedAlphabet (shiftedAlphabet k))) a).toNat : Int) =
      emod26 (25 + 2 * k.toNat - a.toNat) := by
  have hpos : (shiftBackward a k).toNat < 26 := (shift_lt a k).2
  have hmirror : (25 - shiftBackward a k).toNat = 25 - (shiftBackward a k).toNat := by bv_omega
  rw [tableGet_pairedMap_shiftedAlphabet k _ ha, tableGet_reversedAlphabet _ hpos,
    tableGet_shiftedAlphabet k (by omega), toNat_shiftForward, emod26_eq_emod26_iff, hmirror]
  have hback := dvd_sub_emod26 (a.toNat - k.toNat)
  rw [← toNat_shiftBackward] at hback
  omega

/-- Pairing a permutation with its reverse is symmetric: the positions `i` and `25 - i` exchange their letters. -/
theorem pairedMap_reversedAlphabet_comm {s : Table} (hs : isPerm s = true) (hr : isPerm (reversedAlphabet s) = true)
    {a : Index} (ha : a.toNat < 26) :
    tableGet (pairedMap (reversedAlphabet s) s) a = tableGet (pairedMap s (reversedAlphabet s)) a := by
  obtain ⟨i, hi, rfl⟩ := exists_tableGet_eq hs ha
  have hmirror : (25 - i).toNat < 26 := by bv_omega
  have hletter : tableGet (reversedAlphabet s) (25 - i) = tableGet s i := by
    rw [tableGet_reversedAlphabet s hmirror]
    congr 1
    bv_omega
  calc tableGet (pairedMap (reversedAlphabet s) s) (tableGet s i)
    _ = tableGet (pairedMap (reversedAlphabet s) s) (tableGet (reversedAlphabet s) (25 - i)) := by rw [hletter]
    _ = tableGet s (25 - i) := tableGet_pairedMap hr s hmirror
    _ = tableGet (reversedAlphabet s) i := (tableGet_reversedAlphabet s hi).symm
    _ = tableGet (pairedMap s (reversedAlphabet s)) (tableGet s i) := (tableGet_pairedMap hs _ hi).symm

/-- A fixed letter would have `2 * a` and the odd number `25 + 2 * k` differ by a multiple of 26. -/
theorem emod26_reversed_ne (k a : Nat) : emod26 (25 + 2 * k - a) ≠ a := by
  intro hfix
  have hdvd := dvd_sub_emod26 (25 + 2 * k - a)
  omega

theorem toNat_pairedMap_vowelFirst (k : Index) {a : Index} (ha : a.toNat < 26) :
    ((tableGet (pairedMap (shiftedAlphabet k) romVf) a).toNat : Int) = vowelFirst (emod26 (a.toNat - k.toNat)) := by
  rw [tableGet_pairedMap_shiftedAlphabet k _ ha, toNat_tableGet_romVf (shift_lt a k).2, toNat_shiftBackward]

/-- A letter stands in ROM_VF at the position that VFINV gives, and S there is that position shifted by `k`. -/
theorem toNat_pairedMap_from_vowelFirst (k : Index) {a : Index} (ha : a.toNat < 26) :
    ((tableGet (pairedMap romVf (shiftedAlphabet k)) a).toNat : Int) = emod26 (vowelFirstInverse a.toNat + k.toNat) := by
  obtain ⟨i, hi, rfl⟩ := exists_tableGet_eq isPerm_romVf ha
  have hpos : vowelFirstInverse (tableGet romVf i).toNat = i.toNat := by
    rw [toNat_tableGet_romVf hi]
    exact vowelFirstInverse_vowelFirst ⟨i.toNat, hi⟩
  rw [tableGet_pairedMap isPerm_romVf _ hi, tableGet_shiftedAlphabet k hi, toNat_shiftForward, hpos]

/-- The shifts of the forward VOWEL_FIRST map with a fixed letter, each with the letter, as R114 lists them. -/
def vowelFirstFixedPoints : List (Nat × Nat) :=
  [(3, 4), (6, 8), (11, 14), (16, 20), (22, 1), (22, 2), (22, 3), (23, 5), (23, 6), (23, 7),
    (24, 9), (24, 10), (24, 11), (24, 12), (24, 13), (25, 15), (25, 16), (25, 17), (25, 18), (25, 19)]

/-- The closed form has no other fixed letter, by trying the 26 letters at the 25 shifts. -/
theorem vowelFirst_fixes_iff : ∀ k a : Fin 26, 1 ≤ k.val →
    (vowelFirst (emod26 (a.val - k.val)) = a.val ↔ (k.val, a.val) ∈ vowelFirstFixedPoints) := by decide +kernel

/-! ### The statements -/

/-- Settles O13: the check counts positions, the failing branch is the error entry alone, and the pairing is
`tableGet_pairedMap_getElem` in both directions. -/
theorem buildMapsPairsOrFaults : Obligations.BuildMapsPairsOrFaults := by
  refine ⟨isPerm_iff_existsUnique, fun s rest => ?_⟩
  rcases buildMaps_cases rest s with ⟨hfail, e⟩ | ⟨hpass, e⟩
  · exact ⟨fun _ => e, fun hpass => absurd hpass (by simp [hfail])⟩
  · obtain ⟨hS, hT⟩ := Bool.and_eq_true_iff.1 hpass
    exact ⟨fun hfail => absurd hpass (by simp [hfail]), fun _ => ⟨e, rfl, fun i =>
      ⟨tableGet_pairedMap_getElem hS s.tTab i, tableGet_pairedMap_getElem hT s.sTab i⟩⟩⟩

/-- Settles O14: FWD and BWD are the same construction with the tables exchanged. -/
theorem mapsAreMutuallyInverse : Obligations.MapsAreMutuallyInverse :=
  fun _ hS hT => ⟨isPerm_pairedMap hS hT, isPerm_pairedMap hT hS, fun _ ha =>
    ⟨tableGet_pairedMap_pairedMap hS hT ha, tableGet_pairedMap_pairedMap hT hS ha⟩⟩

/-- Settles O16: the built tables pass the check, every command leaves a code of R150 that the engine does report, and a
step leaves ERR alone or leaves such a code. -/
theorem tableFaultIsUnreachable : Obligations.TableFaultIsUnreachable := by
  refine ⟨fun v s hv _ _ => Bool.and_eq_true_iff.1 (isPerm_builtTables hv s), fun i s => ?_, fun s hs => ?_⟩
  · obtain ⟨t, e, hlegal⟩ := exec_resultsLegal i s
    exact ⟨t, e, hlegal.codes.err_ne_tableFault⟩
  · obtain ⟨t, e⟩ := exists_step_eq_next s
    refine ⟨t, e, ?_⟩
    rcases step_results e with hsame | hlegal
    · rw [hsame]
      exact hs
    · exact hlegal.codes.err_ne_tableFault

/-- Settles O15: the closed forms of the four maps, and their fixed points from the closed forms. -/
theorem mapsInClosedForm : Obligations.MapsInClosedForm := by
  intro k a h1 h25 ha s r
  obtain ⟨hs, hr⟩ := isPerm_shiftedAlphabet k
  have hrev := toNat_pairedMap_reversed k ha
  have hvf := toNat_pairedMap_vowelFirst k ha
  refine ⟨hrev, pairedMap_reversedAlphabet_comm hs hr ha, fun hfix => ?_, hvf, toNat_pairedMap_from_vowelFirst k ha,
    vowelFirstInverse_vowelFirst ⟨a.toNat, ha⟩, ?_⟩
  · rw [hfix] at hrev
    exact emod26_reversed_ne k.toNat a.toNat hrev.symm
  · rw [← BitVec.toNat_inj, ← Nat.cast_inj (R := Int), hvf]
    exact vowelFirst_fixes_iff ⟨k.toNat, by omega⟩ ⟨a.toNat, ha⟩ h1

end Sys2Proof.Machine
end

section
/-! PROOFS. Family 44_character_lookup_cipher.md: the character datapath (R120 to R122), the case of the outputs (R123), and
that a string output keeps the length and the spaces of the message (R124).

All three statements read off one description of a cipher command, `SubstitutionCommand`: to each string output belongs
one function of a character, fixed by the command alone, which gives the space for the space and for nothing else; and
where the checks pass, each valid string output is the message mapped by its function, position by position. The case of
the letters is `exec_resultsLegal`. -/

namespace Sys2Proof.Machine

/-! ### One character (R120) -/

/-- The two paths of R120: a space passes, a letter goes by its index. -/
def letterwise (g : Index → Byte) (c : Byte) : Byte := if isSpace c then spaceCode else g (idx c)

/-- Stage-1 encryption of one character (R93). -/
def stage1Char (k : Index) : Byte → Byte := letterwise fun a => upper (shiftForward a k)

/-- Stage-1 decryption of one character (R94). -/
def plainChar (k : Index) : Byte → Byte := letterwise fun a => lower (shiftBackward a k)

/-- The lookup of one character in a map (R121, R122). -/
def lookupChar (map : Table) : Byte → Byte := letterwise fun a => upper (tableGet map a)

theorem encryptStage1_eq_map (str : List Byte) (k : Index) : encryptStage1 str k = str.map (stage1Char k) := rfl

theorem decryptStage1_eq_map (str : List Byte) (k : Index) : decryptStage1 str k = str.map (plainChar k) := rfl

theorem applyForward_eq_map (fwd : Table) (str : List Byte) : applyForward fwd str = str.map (lookupChar fwd) := rfl

theorem applyBackward_eq_map (bwd : Table) (str : List Byte) : applyBackward bwd str = str.map (lookupChar bwd) := rfl

/-! ### Spaces (R124) -/

/-- The function gives a space for a space and for nothing else. -/
def KeepsSpaces (f : Byte → Byte) : Prop := ∀ c, f c = 0x20 ↔ c = 0x20

theorem KeepsSpaces.comp {f g : Byte → Byte} (hf : KeepsSpaces f) (hg : KeepsSpaces g) : KeepsSpaces (f ∘ g) :=
  fun c => (hf (g c)).trans (hg c)

theorem keepsSpaces_letterwise {g : Index → Byte} (hg : ∀ a, isSpace (g a) = false) : KeepsSpaces (letterwise g) := by
  intro c
  rw [← isSpace_iff, ← isSpace_iff, letterwise]
  cases hc : isSpace c with
  | true => simp [isSpace]
  | false => simp [hg]

theorem isSpace_lower (i : Index) : isSpace (lower i) = false := by
  rw [Bool.eq_false_iff, Ne, isSpace_iff_toNat, toNat_lower]
  omega

theorem keepsSpaces_stage1Char (k : Index) : KeepsSpaces (stage1Char k) :=
  keepsSpaces_letterwise fun _ => (idx_upper _).2

theorem keepsSpaces_plainChar (k : Index) : KeepsSpaces (plainChar k) :=
  keepsSpaces_letterwise fun _ => isSpace_lower _

theorem keepsSpaces_lookupChar (map : Table) : KeepsSpaces (lookupChar map) :=
  keepsSpaces_letterwise fun _ => (idx_upper _).2

/-! ### The string outputs -/

/-- The three string outputs, each by its OUTV bit and its buffer (R18, R20). -/
def stringOutputs : List (BitVec 5 × (State → Memory)) :=
  [(outvV1, State.out1), (outvV2, State.out2), (outvVP, State.outp)]

theorem mem_stringOutputs_iff {bit : BitVec 5} {out : State → Memory} : (bit, out) ∈ stringOutputs ↔
    bit = outvV1 ∧ out = State.out1 ∨ bit = outvV2 ∧ out = State.out2 ∨ bit = outvVP ∧ out = State.outp := by
  simp [stringOutputs]

/-- An output as the statements list it, a bit and a buffer of the state after, is one of the three. -/
theorem exists_stringOutput_of_mem {t : State} {bit : BitVec 5} {m : Memory}
    (h : (bit, m) ∈ [(outvV1, t.out1), (outvV2, t.out2), (outvVP, t.outp)]) :
    ∃ out, (bit, out) ∈ stringOutputs ∧ out t = m := by
  simp only [List.mem_cons, Prod.mk.injEq, List.not_mem_nil, or_false] at h
  rcases h with ⟨rfl, rfl⟩ | ⟨rfl, rfl⟩ | ⟨rfl, rfl⟩
  · exact ⟨State.out1, by simp [mem_stringOutputs_iff], rfl⟩
  · exact ⟨State.out2, by simp [mem_stringOutputs_iff], rfl⟩
  · exact ⟨State.outp, by simp [mem_stringOutputs_iff], rfl⟩

/-- A state in which no output, only RESULT, or only TBL is valid has no valid string output. -/
theorem outputValid_eq_false_of_no_string {t : State} (h : t.outv = 0 ∨ t.outv = outvVR ∨ t.outv = outvVT)
    {bit : BitVec 5} {out : State → Memory} (hout : (bit, out) ∈ stringOutputs) : t.outputValid bit = false := by
  have hbits : ∀ v ∈ [0, outvVR, outvVT], ∀ b ∈ [outvV1, outvV2, outvVP], (v &&& b == b) = false := by decide
  exact hbits t.outv (by simpa using h) bit (List.mem_map_of_mem (f := Prod.fst) hout)

/-- A valid string output holds letters and spaces where the outputs are filled as R123 says. -/
theorem OutputsHoldResults.letter_or_space {t : State} (h : OutputsHoldResults t) {bit : BitVec 5} {out : State → Memory}
    (hout : (bit, out) ∈ stringOutputs) (hvalid : t.outputValid bit = true) {p : Nat} (hp : p < t.outlen) :
    ∃ c, Memory.read (out t) p = some c ∧ (c = 0x20 ∨ isLetter c = true) := by
  obtain ⟨hout1, hout2, houtp, -⟩ := h
  rcases mem_stringOutputs_iff.1 hout with ⟨rfl, rfl⟩ | ⟨rfl, rfl⟩ | ⟨rfl, rfl⟩
  · obtain ⟨c, hc, hcase⟩ := hout1 hvalid p hp
    exact ⟨c, hc, hcase.imp_right fun hu => (isLetter_iff c).2 (.inl hu)⟩
  · obtain ⟨c, hc, hcase⟩ := hout2 hvalid p hp
    exact ⟨c, hc, hcase.imp_right fun hu => (isLetter_iff c).2 (.inl hu)⟩
  · obtain ⟨c, hc, hcase⟩ := houtp hvalid p hp
    exact ⟨c, hc, hcase.imp_right fun hl => (isLetter_iff c).2 (.inr hl)⟩

/-! ### Outputs that are the message, mapped character by character -/

/-- The state holds the results of a substitution of `str`: OUTV is `mask`, OUTLEN the length, and every valid string
output is `str` mapped by the function of its bit. -/
structure SubstitutesBy (mask : BitVec 5) (f : BitVec 5 → Byte → Byte) (str : List Byte) (t : State) : Prop where
  outv : t.outv = mask
  outlen : t.outlen = str.length
  read_output {bit : BitVec 5} {out : State → Memory} : (bit, out) ∈ stringOutputs → t.outputValid bit = true →
    ∀ p (hp : p < str.length), Memory.read (out t) p = some (f bit str[p])

/-- The reading of `SubstitutesBy` at a position of the message. -/
theorem SubstitutesBy.read_message {mask : BitVec 5} {f : BitVec 5 → Byte → Byte} {s t : State}
    (h : SubstitutesBy mask f (readMessage s) t) {bit : BitVec 5} {out : State → Memory}
    (hout : (bit, out) ∈ stringOutputs) (hvalid : t.outputValid bit = true) {p : Nat} (hp : p < s.len) :
    Memory.read (out t) p = some (f bit (inByte s p)) := by
  have hread := h.read_output hout hvalid p (by simpa using hp)
  rwa [readMessage_getElem] at hread

/-- Where a mapped string is stored, each element is the image of the character there. -/
theorem read_writeString_map (m : Memory) (g : Byte → Byte) (str : List Byte) (p : Nat) (hp : p < str.length) :
    Memory.read (Memory.writeString m 0 (str.map g)) p = some (g str[p]) := by
  rw [read_writeString_zero m (by simpa using hp), List.getElem?_map, List.getElem?_eq_getElem hp]
  rfl

/-- A command that completes has substituted when the string outputs of its mask are mapped strings. Of an output that a
given mask leaves out nothing need be shown. -/
theorem substitutesBy_complete {mask : BitVec 5} {f : BitVec 5 → Byte → Byte} {str : List Byte} {n : Nat} {s : State}
    (hn : n = str.length)
    (hout1 : (mask &&& outvV1 == outvV1) = true →
        ∀ p (hp : p < str.length), Memory.read s.out1 p = some (f outvV1 str[p]) :=
      by exact fun hm => absurd hm (by decide))
    (hout2 : (mask &&& outvV2 == outvV2) = true →
        ∀ p (hp : p < str.length), Memory.read s.out2 p = some (f outvV2 str[p]) :=
      by exact fun hm => absurd hm (by decide))
    (houtp : (mask &&& outvVP == outvVP) = true →
        ∀ p (hp : p < str.length), Memory.read s.outp p = some (f outvVP str[p]) :=
      by exact fun hm => absurd hm (by decide)) :
    SubstitutesBy mask f str (complete mask n s) where
  outv := rfl
  outlen := hn
  read_output := by
    intro bit out hout
    rcases mem_stringOutputs_iff.1 hout with ⟨rfl, rfl⟩ | ⟨rfl, rfl⟩ | ⟨rfl, rfl⟩
    · exact hout1
    · exact hout2
    · exact houtp

/-! ### The bodies -/

theorem encCaesarBody_substitutes (s : State) :
    SubstitutesBy outvV1 (fun _ => stage1Char s.kLatch) (readMessage s) (encCaesarBody s) :=
  substitutesBy_complete (by simp) (hout1 := fun _ => read_writeString_map _ _ _)

theorem decCaesarBody_substitutes (s : State) :
    SubstitutesBy outvVP (fun _ => plainChar s.kLatch) (readMessage s) (decCaesarBody s) :=
  substitutesBy_complete (by simp) (houtp := fun _ => read_writeString_map _ _ _)

/-- The functions of ENC_DOUBLE: the stage-1 character for OUT1, and its lookup for OUT2 (R134). -/
def encDoubleChar (k : Index) (fwd : Table) (bit : BitVec 5) : Byte → Byte :=
  if bit = outvV1 then stage1Char k else lookupChar fwd ∘ stage1Char k

/-- The function of DEC_DOUBLE: the lookup, then stage-1 decryption (R135). -/
def decDoubleChar (k : Index) (bwd : Table) : Byte → Byte := plainChar k ∘ lookupChar bwd

theorem keepsSpaces_encDoubleChar (k : Index) (fwd : Table) (bit : BitVec 5) : KeepsSpaces (encDoubleChar k fwd bit) := by
  rw [encDoubleChar]
  split
  · exact keepsSpaces_stage1Char k
  · exact (keepsSpaces_lookupChar fwd).comp (keepsSpaces_stage1Char k)

theorem keepsSpaces_decDoubleChar (k : Index) (bwd : Table) : KeepsSpaces (decDoubleChar k bwd) :=
  (keepsSpaces_plainChar k).comp (keepsSpaces_lookupChar bwd)

theorem encDoubleStrings_substitutes (s : State) :
    SubstitutesBy (outvV1 ||| outvV2) (encDoubleChar s.kLatch s.fwd) (readMessage s) (encDoubleStrings s) := by
  have hct2 : applyForward s.fwd (encryptStage1 (readMessage s) s.kLatch) =
      (readMessage s).map (lookupChar s.fwd ∘ stage1Char s.kLatch) := by
    rw [applyForward_eq_map, encryptStage1_eq_map, List.map_map]
  rw [encDoubleStrings, hct2]
  exact substitutesBy_complete (by simp) (hout1 := fun _ => read_writeString_map _ _ _)
    (hout2 := fun _ => read_writeString_map _ _ _)

theorem decDoubleStrings_substitutes (s : State) :
    SubstitutesBy outvVP (fun _ => decDoubleChar s.kLatch s.bwd) (readMessage s) (decDoubleStrings s) := by
  have hpt : decryptStage1 (applyBackward s.bwd (readMessage s)) s.kLatch =
      (readMessage s).map (decDoubleChar s.kLatch s.bwd) := by
    rw [decryptStage1_eq_map, applyBackward_eq_map, List.map_map, decDoubleChar]
  rw [decDoubleStrings, hpt]
  exact substitutesBy_complete (by simp) (houtp := fun _ => read_writeString_map _ _ _)

/-- The strings of a double cipher find the maps between S and T in FWD and BWD, and the message as it was (R110). -/
theorem doubleBody_substitutes {mask : BitVec 5} {f : Index → Table → Table → BitVec 5 → Byte → Byte} {var : Variant}
    (hvar : var ≠ .none) {strings : State → State}
    (hstrings : ∀ u, SubstitutesBy mask (f u.kLatch u.fwd u.bwd) (readMessage u) (strings u)) {s : State} {T : Table}
    (hT : (buildT var (buildS s)).tTab = T) :
    SubstitutesBy mask (f s.kLatch (pairedMap (shiftedAlphabet s.kLatch) T) (pairedMap T (shiftedAlphabet s.kLatch)))
      (readMessage s) (buildMaps strings (buildT var (buildS s))) := by
  rw [buildMaps_builtTables hvar]
  simpa [hT] using hstrings (writeMaps (buildT var (buildS s)))

theorem encDoubleBody_substitutes {var : Variant} (hvar : var ≠ .none) {s : State} {k : Index} {T : Table}
    (hk : s.kLatch = k) (hT : (buildT var (buildS s)).tTab = T) :
    SubstitutesBy (outvV1 ||| outvV2) (encDoubleChar k (pairedMap (shiftedAlphabet k) T)) (readMessage s)
      (encDoubleBody var s) := by
  subst hk
  exact doubleBody_substitutes (f := fun k fwd _ => encDoubleChar k fwd) hvar encDoubleStrings_substitutes hT

theorem decDoubleBody_substitutes {var : Variant} (hvar : var ≠ .none) {s : State} {k : Index} {T : Table}
    (hk : s.kLatch = k) (hT : (buildT var (buildS s)).tTab = T) :
    SubstitutesBy outvVP (fun _ => decDoubleChar k (pairedMap T (shiftedAlphabet k))) (readMessage s)
      (decDoubleBody var s) := by
  subst hk
  exact doubleBody_substitutes (f := fun k _ bwd _ => decDoubleChar k bwd) hvar decDoubleStrings_substitutes hT

/-! ### The cipher commands -/

/-- The checks of a cipher command with a legal word pass (R130). -/
structure CipherAccepts (k : Int) (s : State) : Prop where
  fits : MessageFits s
  legal : ShiftLegal k
  valid : TextValid s

/-- The command substitutes character by character with the functions `f`, one per string output, where its checks pass,
and makes no output valid where one fails. -/
structure SubstitutionCommand (i : Instr) (k : Int) (f : BitVec 5 → Byte → Byte) : Prop where
  keepsSpaces (bit : BitVec 5) : KeepsSpaces (f bit)
  run (s : State) : ∃ t, exec i s = .next t ∧
    (CipherAccepts k s → SubstitutesBy (outputMask i) f (readMessage s) t) ∧ (¬ CipherAccepts k s → t.outv = 0)

/-- A cipher command substitutes when its body does, run on the same message with the latch loaded (R130). -/
theorem cipherCommand_substitutes {mask : BitVec 5} {f : BitVec 5 → Byte → Byte} {k : Int} {body : State → State}
    {s : State} (hbody : SubstitutesBy mask f (readMessage (bodyState k s)) (body (bodyState k s))) :
    (CipherAccepts k s → SubstitutesBy mask f (readMessage s) (cipherCommand k body s)) ∧
    (¬ CipherAccepts k s → (cipherCommand k body s).outv = 0) := by
  rcases cipherCommand_cases k body s with ⟨hfits, e⟩ | ⟨-, hlegal, e⟩ | ⟨-, -, hvalid, e⟩ | ⟨hfits, hlegal, hvalid, e⟩ <;>
    rw [e]
  · exact ⟨fun h => absurd h.fits hfits, fun _ => rfl⟩
  · exact ⟨fun h => absurd h.legal hlegal, fun _ => rfl⟩
  · exact ⟨fun h => absurd h.valid hvalid, fun _ => rfl⟩
  · exact ⟨fun _ => hbody, fun h => absurd ⟨hfits, hlegal, hvalid⟩ h⟩

theorem buildT_reversed_bodyState (k : Int) (s : State) : (buildT .reversed (buildS (bodyState k s))).tTab =
    reversedAlphabet (shiftedAlphabet (BitVec.ofInt 5 k)) := by
  simp

theorem buildT_vowelFirst_bodyState (k : Int) (s : State) :
    (buildT .vowelFirst (buildS (bodyState k s))).tTab = romVf := by
  simp

/-- Every cipher command is a substitution, by functions that the command alone fixes (R120). -/
theorem exists_substitutionCommand {i : Instr} (hi : isCipher i = true) :
    ∃ k f, shiftOf i = some k ∧ SubstitutionCommand i k f := by
  cases i with
  | encCaesar k =>
    exact ⟨k, fun _ => stage1Char (BitVec.ofInt 5 k), rfl, fun _ => keepsSpaces_stage1Char _,
      fun s => ⟨_, rfl, cipherCommand_substitutes (encCaesarBody_substitutes (bodyState k s))⟩⟩
  | decCaesar k =>
    exact ⟨k, fun _ => plainChar (BitVec.ofInt 5 k), rfl, fun _ => keepsSpaces_plainChar _,
      fun s => ⟨_, rfl, cipherCommand_substitutes (decCaesarBody_substitutes (bodyState k s))⟩⟩
  | encDoubleRev k =>
    have hbody (s : State) := encDoubleBody_substitutes (var := .reversed) nofun (bodyState_kLatch k s)
      (buildT_reversed_bodyState k s)
    exact ⟨k, _, rfl, keepsSpaces_encDoubleChar _ _, fun s => ⟨_, rfl, cipherCommand_substitutes (hbody s)⟩⟩
  | encDoubleVf k =>
    have hbody (s : State) := encDoubleBody_substitutes (var := .vowelFirst) nofun (bodyState_kLatch k s)
      (buildT_vowelFirst_bodyState k s)
    exact ⟨k, _, rfl, keepsSpaces_encDoubleChar _ _, fun s => ⟨_, rfl, cipherCommand_substitutes (hbody s)⟩⟩
  | decDoubleRev k =>
    have hbody (s : State) := decDoubleBody_substitutes (var := .reversed) nofun (bodyState_kLatch k s)
      (buildT_reversed_bodyState k s)
    exact ⟨k, _, rfl, fun _ => keepsSpaces_decDoubleChar _ _, fun s => ⟨_, rfl, cipherCommand_substitutes (hbody s)⟩⟩
  | decDoubleVf k =>
    have hbody (s : State) := decDoubleBody_substitutes (var := .vowelFirst) nofun (bodyState_kLatch k s)
      (buildT_vowelFirst_bodyState k s)
    exact ⟨k, _, rfl, fun _ => keepsSpaces_decDoubleChar _ _, fun s => ⟨_, rfl, cipherCommand_substitutes (hbody s)⟩⟩
  | _ => simp [isCipher] at hi

/-! ### Every command -/

theorem mapTableCommand_outv (k : Int) (var : Variant) (s : State) :
    (mapTableCommand k var s).outv = 0 ∨ (mapTableCommand k var s).outv = outvVT := by
  rcases mapTableCommand_cases k var s with ⟨-, e⟩ | ⟨-, e⟩ <;> rw [e]
  · exact .inl rfl
  · exact .inr rfl

/-- IS_VALID and MAP_TABLE make no string output valid (R131, R136). -/
theorem exec_outv_of_not_cipher {i : Instr} (hi : isCipher i = false) (s : State) :
    ∃ t, exec i s = .next t ∧ (t.outv = 0 ∨ t.outv = outvVR ∨ t.outv = outvVT) := by
  cases i with
  | isValid =>
    refine ⟨_, rfl, ?_⟩
    rcases messageCommand_cases isValidBody s with ⟨-, e⟩ | ⟨-, e⟩ <;> rw [e]
    · exact .inl rfl
    · exact .inr (.inl rfl)
  | mapTableRev k => exact ⟨_, rfl, (mapTableCommand_outv k .reversed s).imp_right .inr⟩
  | mapTableVf k => exact ⟨_, rfl, (mapTableCommand_outv k .vowelFirst s).imp_right .inr⟩
  | _ => simp [isCipher] at hi

/-- After any command, from any state: no string output is valid, or all that are valid are the message substituted. -/
theorem exec_strings (i : Instr) (s : State) : ∃ t, exec i s = .next t ∧
    ((t.outv = 0 ∨ t.outv = outvVR ∨ t.outv = outvVT) ∨
      ∃ f, (∀ bit, KeepsSpaces (f bit)) ∧ SubstitutesBy (outputMask i) f (readMessage s) t) := by
  cases hi : isCipher i with
  | false =>
    obtain ⟨t, e, hv⟩ := exec_outv_of_not_cipher hi s
    exact ⟨t, e, .inl hv⟩
  | true =>
    obtain ⟨k, f, -, hsub⟩ := exists_substitutionCommand hi
    obtain ⟨t, e, haccepts, hrejects⟩ := hsub.run s
    by_cases h : CipherAccepts k s
    · exact ⟨t, e, .inr ⟨f, hsub.keepsSpaces, haccepts h⟩⟩
    · exact ⟨t, e, .inl (.inl (hrejects h))⟩

/-- The state a command leaves has its valid outputs filled, as a fact about that state. -/
theorem outputsHoldResults_of_exec {i : Instr} {s t : State} (h : exec i s = .next t) : OutputsHoldResults t := by
  obtain ⟨u, e, hu⟩ := exec_resultsLegal i s
  obtain rfl : u = t := by simpa [e] using h
  exact hu.outputs

/-! ### The statements -/

/-- Settles O32: the cases of the letters are `exec_resultsLegal`'s, and the spaces are those of `exec_strings`. -/
theorem outputCaseIsFixed : Obligations.OutputCaseIsFixed := by
  intro i s
  obtain ⟨t, e, hstrings⟩ := exec_strings i s
  refine ⟨t, e, outputsHoldResults_of_exec e, fun bit m hm hvalid p hp => ?_⟩
  obtain ⟨out, hout, rfl⟩ := exists_stringOutput_of_mem hm
  rcases hstrings with hnone | ⟨f, hspaces, hsub⟩
  · simp [outputValid_eq_false_of_no_string hnone hout] at hvalid
  · have hlen : p < s.len := by simpa [hsub.outlen] using hp
    rw [hsub.read_message hout hvalid hlen, Option.some_inj]
    exact hspaces bit (inByte s p)

/-- Settles O33: a cipher command whose checks pass maps the message by functions that keep spaces. -/
theorem lengthAndSpacesArePreserved : Obligations.LengthAndSpacesArePreserved := by
  intro i k s hi hk hfits hlegal htext
  obtain ⟨k', f, hk', hsub⟩ := exists_substitutionCommand hi
  obtain rfl : k' = k := by simpa [hk'] using hk
  obtain ⟨t, e, haccepts, -⟩ := hsub.run s
  have ht := haccepts ⟨hfits, hlegal, htext⟩
  have hlen : t.outlen = s.len := by simpa using ht.outlen
  refine ⟨t, e, hlen, fun bit m hm hvalid p hp => ?_⟩
  obtain ⟨out, hout, rfl⟩ := exists_stringOutput_of_mem hm
  obtain ⟨c, hc, hcase⟩ := (outputsHoldResults_of_exec e).letter_or_space hout hvalid (hlen ▸ hp)
  obtain rfl : f bit (inByte s p) = c := by simpa [ht.read_message hout hvalid hp] using hc
  exact ⟨_, hc, hsub.keepsSpaces bit (inByte s p), hcase.resolve_left⟩

/-- Settles O34: both runs map their messages by the same functions, those of the command. -/
theorem substitutionIsMonoalphabetic : Obligations.SubstitutionIsMonoalphabetic := by
  intro i k s t p q hi hk hlegal hfitsS htextS hfitsT htextT hp hq hsame
  obtain ⟨k', f, hk', hsub⟩ := exists_substitutionCommand hi
  obtain rfl : k' = k := by simpa [hk'] using hk
  obtain ⟨s', eS, hacceptsS, -⟩ := hsub.run s
  obtain ⟨t', eT, hacceptsT, -⟩ := hsub.run t
  have hS := hacceptsS ⟨hfitsS, hlegal, htextS⟩
  have hT := hacceptsT ⟨hfitsT, hlegal, htextT⟩
  have houtv : s'.outv = t'.outv := hS.outv.trans hT.outv.symm
  have hread {bit : BitVec 5} {out : State → Memory} (hout : (bit, out) ∈ stringOutputs)
      (hvalid : s'.outputValid bit = true) : Memory.read (out s') p = Memory.read (out t') q := by
    have hvalid' : t'.outputValid bit = true := by rwa [State.outputValid, ← houtv]
    rw [hS.read_message hout hvalid hp, hT.read_message hout hvalid' hq, hsame]
  exact ⟨s', t', eS, eT, houtv, hread (by simp [mem_stringOutputs_iff]), hread (by simp [mem_stringOutputs_iff]),
    hread (by simp [mem_stringOutputs_iff])⟩

end Sys2Proof.Machine
end

section
/-! PROOFS. Family 45_engine_commands.md: each command's encoding, errors, results and frame (R131 to R136), that every
word ends DONE or ERROR with results that its inputs fix (R138), and the round trips (R135, R137, R139).

A double cipher sends the letter `a` to entry `a` of its table T: `FWD[a + k]` is `T[a]`
(`tableGet_pairedMap_shiftForward`). So a variant is known by the closed form of T and by the function that undoes it
(`StageTwo`), and the two halves of a command's statement, the errors in order and the completed state, are put together
once (`CipherEnds.of_body`). The round trips need no more than what the statements on the single commands say: a command
delivers its message mapped character by character (`CipherDelivers`), and two such maps compose. -/

namespace Sys2Proof.Machine

open Sys2Proof.Laws (lowByte)

/-! ### The encodings (R64, R65) -/

/-- A shift above the low byte of a row spells the row's command with that shift. -/
theorem decode_append_lowByte (b : Byte) {i : Instr} (h : b.toInt = wordShift i) : decode (b ++ lowByte i) = .ok i :=
  decode_of_spells ⟨BitVec.setWidth_append_eq_right, by rw [shiftField_append, h]⟩

/-- OP = 4, 5 and 6 admit VAR = 1 and 2 only. -/
theorem decode_error_of_variant {w : Word} (hop : opField w = 4 ∨ opField w = 5 ∨ opField w = 6)
    (hvar : varField w = 0 ∨ varField w = 3) : ∃ e, decode w = .error e := by
  rw [decode_error_iff_illegal]
  rcases hvar with h0 | h3
  · exact .inr (.inr (.inr (.inr (.inr (.inl ⟨hop, h0⟩)))))
  · exact .inr (.inr (.inr (.inl h3)))

/-- OP = 1 admits the one word 0x0001. -/
theorem decode_error_of_op_one {w : Word} (hop : opField w = 1) (hw : w ≠ 0x0001) : ∃ e, decode w = .error e := by
  rw [decode_error_iff_not_spells]
  rintro ⟨i, hi⟩
  obtain ⟨-, -, hrow, -⟩ := spells_iff_fields.1 hi
  rw [hop] at hrow
  cases i with
  | isValid =>
    obtain ⟨-, hencode⟩ := spells_iff_encode.1 hi
    exact hw hencode.symm
  | _ => simp [rowOp] at hrow

/-! ### Errors in order, then the body (R130, R158) -/

/-- The four ways a cipher command with the shift `k` ends from `s`, the checks in the order of R158; `Done` is what it
leaves where all of them pass. -/
def CipherEnds (i : Instr) (k : Int) (s : State) (Done : State → Prop) : Prop :=
  (¬ MessageFits s → ∃ t, exec i s = .next t ∧ ErrorEntry .illegalCommand s t) ∧
  (MessageFits s → ¬ ShiftLegal k → ∃ t, exec i s = .next t ∧ ErrorEntry .shiftOutOfRange s t) ∧
  (MessageFits s → ShiftLegal k → ¬ TextValid s → ∃ t, exec i s = .next t ∧ ErrorEntry .invalidCharacter s t) ∧
  (MessageFits s → ShiftLegal k → TextValid s → ∃ t, exec i s = .next t ∧ Done t)

theorem errorEntry_raise (e : ErrorName) (s : State) : ErrorEntry e s (raise e (clearOutputs s)) := rfl

theorem errorEntry_raise_pos (e : ErrorName) (s : State) (n : Nat) :
    ErrorEntry e s (raise e { clearOutputs s with pos := n }) := rfl

/-- Only the last of the four ways depends on the body. -/
theorem CipherEnds.of_body {i : Instr} {k : Int} {body : State → State} {s : State} {Done : State → Prop}
    (hexec : exec i s = .next (cipherCommand k body s))
    (hbody : ShiftLegal k → TextValid s → Done (body (bodyState k s))) : CipherEnds i k s Done := by
  unfold CipherEnds
  rw [hexec]
  rcases cipherCommand_cases k body s with ⟨hfits, e⟩ | ⟨hfits, hlegal, e⟩ | ⟨hfits, hlegal, hvalid, e⟩ |
    ⟨hfits, hlegal, hvalid, e⟩ <;> rw [e]
  · exact ⟨fun _ => ⟨_, rfl, errorEntry_raise _ s⟩, fun h => absurd h hfits, fun h => absurd h hfits,
      fun h => absurd h hfits⟩
  · exact ⟨fun h => absurd hfits h, fun _ _ => ⟨_, rfl, errorEntry_raise _ s⟩, fun _ h => absurd h hlegal,
      fun _ h => absurd h hlegal⟩
  · exact ⟨fun h => absurd hfits h, fun _ h => absurd hlegal h,
      fun _ _ _ => ⟨_, rfl, errorEntry_raise_pos _ s s.len⟩, fun _ _ h => absurd h hvalid⟩
  · exact ⟨fun h => absurd hfits h, fun _ h => absurd hlegal h, fun _ _ h => absurd hvalid h,
      fun _ _ _ => ⟨_, rfl, hbody hlegal hvalid⟩⟩

/-! ### One character, on integers -/

theorem upperChar_eq_letterwise (f : Int → Int) :
    upperChar f = letterwise fun a => upper (BitVec.ofInt 5 (f a.toNat % 26)) := by
  funext c
  simp only [upperChar, letterwise, isSpace_iff, spaceCode]

theorem lowerChar_eq_letterwise (f : Int → Int) :
    lowerChar f = letterwise fun a => lower (BitVec.ofInt 5 (f a.toNat % 26)) := by
  funext c
  simp only [lowerChar, letterwise, isSpace_iff, spaceCode]

/-- A second letterwise step reads the index that the first one wrote (R67). -/
theorem letterwise_letterwise_upper (g : Index → Byte) (h : Index → Index) (c : Byte) :
    letterwise g (letterwise (fun a => upper (h a)) c) = letterwise (fun a => g (h a)) c := by
  simp only [letterwise]
  cases hspace : isSpace c with
  | true => rfl
  | false =>
    obtain ⟨hidx, hletter⟩ := idx_upper (h (idx c))
    simp [hidx, hletter]

/-- On an accepted character only the letter indices 0 to 25 matter. -/
theorem letterwise_congr {g h : Index → Byte} (hgh : ∀ a : Index, a.toNat < 26 → g a = h a) {c : Byte}
    (hc : accepted c = true) : letterwise g c = letterwise h c := by
  simp only [letterwise]
  cases hspace : isSpace c with
  | true => rfl
  | false => simp [hgh _ (idx_lt_of_accepted c hc hspace)]

theorem stage1Char_latched {k : Int} (hk : ShiftLegal k) :
    stage1Char (BitVec.ofInt 5 k) = upperChar fun a => a + k := by
  rw [upperChar_eq_letterwise, stage1Char]
  simp only [shiftForward_latched _ k hk]

theorem plainChar_latched {k : Int} (hk : ShiftLegal k) : plainChar (BitVec.ofInt 5 k) = lowerChar fun a => a - k := by
  rw [lowerChar_eq_letterwise, plainChar]
  simp only [shiftBackward_latched _ k hk]

/-- A valid message, mapped and stored from element 0 up, is stored by any function that agrees with the map on the
accepted characters. -/
theorem stringStored_map {s : State} (hvalid : TextValid s) {g f : Byte → Byte}
    (hgf : ∀ c, accepted c = true → g c = f c) (m : Memory) :
    StringStored m (Memory.writeString m 0 ((readMessage s).map g)) s.len fun p => f (inByte s p) := by
  have hlen : ((readMessage s).map g).length = s.len := by simp
  have hstored := stringStored_writeString m ((readMessage s).map g) (fun p => f (inByte s p)) fun p hp => by
    rw [List.getElem_map, readMessage_getElem]
    exact hgf _ (hvalid p (hlen ▸ hp))
  rwa [hlen] at hstored

/-! ### The closed form of stage 2 (R114, R139) -/

/-- On the letter indices `g` undoes `f`, both taken modulo 26. -/
def UndoneBy (f g : Int → Int) : Prop := ∀ a : Int, 0 ≤ a → a < 26 → g (f a % 26) % 26 = a

/-- The variant `var` under the shift `k`, in closed form: the table T that it builds is a permutation and holds
`stage2 a` at position `a`, and `plain` finds the position again. -/
structure StageTwo (var : Variant) (k : Int) (T : Table) (stage2 plain : Int → Int) : Prop where
  ne_none : var ≠ .none
  built {s : State} : s.kLatch = BitVec.ofInt 5 k → (buildT var (buildS s)).tTab = T
  perm : isPerm T = true
  entry {a : Index} : a.toNat < 26 → tableGet T a = BitVec.ofInt 5 (stage2 a.toNat % 26)
  undone : UndoneBy stage2 plain

/-- `25 + k - a` is its own inverse (R139). -/
theorem undoneBy_reversed (k : Int) : UndoneBy (fun a => 25 + k - a) fun a => 25 + k - a := by
  intro a h0 h26
  dsimp only
  omega

/-- VFINV undoes ROM_VF, whose entries are 0 to 25 (R114). -/
theorem undoneBy_vowelFirst : UndoneBy vowelFirst vowelFirstInverse := by
  have hentries : ∀ a : Fin 26, vowelFirstInverse (vowelFirst a.val % 26) % 26 = a.val := by decide
  intro a h0 h26
  obtain ⟨n, rfl⟩ := Int.eq_ofNat_of_zero_le h0
  exact hentries ⟨n, by omega⟩

/-- Shifting back undoes shifting (R92, R95). -/
theorem undoneBy_shift (k : Int) : UndoneBy (fun a => a + k) fun a => a - k := by
  intro a h0 h26
  dsimp only
  omega

theorem stageTwo_reversed {k : Int} (hk : ShiftLegal k) :
    StageTwo .reversed k (reversedAlphabet (shiftedAlphabet (BitVec.ofInt 5 k))) (fun a => 25 + k - a)
      fun a => 25 + k - a where
  ne_none := nofun
  built h := by simp [h]
  perm := (isPerm_shiftedAlphabet _).2
  entry {a} ha := by
    have hmirror : (25 - a).toNat = 25 - a.toNat := by bv_omega
    rw [tableGet_reversedAlphabet _ ha, tableGet_shiftedAlphabet _ (by omega), shiftForward_latched _ k hk, hmirror]
    congr 2
    omega
  undone := undoneBy_reversed k

theorem stageTwo_vowelFirst (k : Int) : StageTwo .vowelFirst k romVf vowelFirst vowelFirstInverse where
  ne_none := nofun
  built _ := rfl
  perm := isPerm_romVf
  entry {a} ha := by
    have hlt := tableGet_lt indexTable_romVf a
    rw [← toNat_tableGet_romVf ha, Int.emod_eq_of_lt (by omega) (by omega), BitVec.ofInt_natCast, BitVec.ofNat_toNat,
      BitVec.setWidth_eq]
  undone := undoneBy_vowelFirst

/-- FWD at the shifted letter is T at the letter itself (R110): the shift cancels, which is why a vowel-first ciphertext
does not show it. -/
theorem tableGet_pairedMap_shiftForward (k : Index) (T : Table) {a : Index} (ha : a.toNat < 26) :
    tableGet (pairedMap (shiftedAlphabet k) T) (shiftForward a k) = tableGet T a := by
  rw [tableGet_pairedMap_shiftedAlphabet k T (shift_lt a k).1, shiftBackward_shiftForward ha]

/-- BWD and the shift back give the position of a letter in T, by the closed form that undoes T's (R135). -/
theorem StageTwo.position {var : Variant} {k : Int} {T : Table} {stage2 plain : Int → Int}
    (h : StageTwo var k T stage2 plain) {b : Index} (hb : b.toNat < 26) :
    shiftBackward (tableGet (pairedMap T (shiftedAlphabet (BitVec.ofInt 5 k))) b) (BitVec.ofInt 5 k) =
      BitVec.ofInt 5 (plain b.toNat % 26) := by
  obtain ⟨a, ha, rfl⟩ := exists_tableGet_eq h.perm hb
  have hentry : ((tableGet T a).toNat : Int) = stage2 a.toNat % 26 := by
    rw [h.entry ha]
    exact toNat_ofInt_emod26 _
  rw [tableGet_pairedMap h.perm _ ha, tableGet_shiftedAlphabet _ ha, shiftBackward_shiftForward ha, hentry,
    h.undone a.toNat (by omega) (by omega), BitVec.ofInt_natCast, BitVec.ofNat_toNat, BitVec.setWidth_eq]

/-- Both stages of an accepted character (R134). -/
theorem StageTwo.lookupChar_stage1Char {var : Variant} {k : Int} {T : Table} {stage2 plain : Int → Int}
    (h : StageTwo var k T stage2 plain) {c : Byte} (hc : accepted c = true) :
    lookupChar (pairedMap (shiftedAlphabet (BitVec.ofInt 5 k)) T) (stage1Char (BitVec.ofInt 5 k) c) =
      upperChar stage2 c := by
  rw [lookupChar, stage1Char, letterwise_letterwise_upper, upperChar_eq_letterwise]
  exact letterwise_congr (fun a ha => by rw [tableGet_pairedMap_shiftForward _ T ha, h.entry ha]) hc

/-- Both stages of an accepted character, undone (R135). -/
theorem StageTwo.plainChar_lookupChar {var : Variant} {k : Int} {T : Table} {stage2 plain : Int → Int}
    (h : StageTwo var k T stage2 plain) {c : Byte} (hc : accepted c = true) :
    plainChar (BitVec.ofInt 5 k) (lookupChar (pairedMap T (shiftedAlphabet (BitVec.ofInt 5 k))) c) =
      lowerChar plain c := by
  rw [plainChar, lookupChar, letterwise_letterwise_upper, lowerChar_eq_letterwise]
  exact letterwise_congr (fun b hb => by rw [h.position hb]) hc

/-! ### The body of a double cipher -/

/-- The state in which the strings of a double cipher are made: its tables and maps built (R134, R135). -/
def builtState (var : Variant) (k : Int) (s : State) : State := writeMaps (buildT var (buildS (bodyState k s)))

theorem outputsKept_builtState (var : Variant) (k : Int) (s : State) : OutputsKept s (builtState var k s) := by
  cases var <;> rfl

@[simp] theorem builtState_kLatch (var : Variant) (k : Int) (s : State) :
    (builtState var k s).kLatch = BitVec.ofInt 5 k := by simp [builtState]

@[simp] theorem readMessage_builtState (var : Variant) (k : Int) (s : State) :
    readMessage (builtState var k s) = readMessage s := by simp [builtState]

@[simp] theorem builtState_out1 (var : Variant) (k : Int) (s : State) : (builtState var k s).out1 = s.out1 := by
  simp [builtState]

@[simp] theorem builtState_out2 (var : Variant) (k : Int) (s : State) : (builtState var k s).out2 = s.out2 := by
  simp [builtState]

@[simp] theorem builtState_outp (var : Variant) (k : Int) (s : State) : (builtState var k s).outp = s.outp := by
  simp [builtState]

theorem StageTwo.builtState_maps {var : Variant} {k : Int} {T : Table} {stage2 plain : Int → Int}
    (h : StageTwo var k T stage2 plain) (s : State) :
    (builtState var k s).fwd = pairedMap (shiftedAlphabet (BitVec.ofInt 5 k)) T ∧
    (builtState var k s).bwd = pairedMap T (shiftedAlphabet (BitVec.ofInt 5 k)) := by
  simp [builtState, h.built (bodyState_kLatch k s)]

/-- A double cipher ends as its strings do: no TABLE_FAULT comes between (R113). -/
theorem CipherEnds.of_strings {i : Instr} {k : Int} {var : Variant} (hvar : var ≠ .none) {strings : State → State}
    {s : State} {Done : State → Prop}
    (hexec : exec i s = .next (cipherCommand k (fun u => buildMaps strings (buildT var (buildS u))) s))
    (hstrings : ShiftLegal k → TextValid s → Done (strings (builtState var k s))) : CipherEnds i k s Done := by
  refine .of_body hexec fun hlegal hvalid => ?_
  rw [buildMaps_builtTables hvar]
  exact hstrings hlegal hvalid

/-- What ENC_DOUBLE changes (R134): its two outputs, the result registers and the scratch. -/
theorem encDoubleStrings_frame {s u t : State} (h : OutputsKept s u) (ht : encDoubleStrings u = t) :
    t = { s with
      status := statusDone, err := errNone, outv := 0x03, outlen := s.len, out1 := t.out1, out2 := t.out2,
      kLatch := t.kLatch, sTab := t.sTab, tTab := t.tTab, fwd := t.fwd, bwd := t.bwd, pos := t.pos } := by
  rw [← ht, h]
  rfl

/-- What DEC_DOUBLE changes (R135): OUTP, the result registers and the scratch. -/
theorem decDoubleStrings_frame {s u t : State} (h : OutputsKept s u) (ht : decDoubleStrings u = t) :
    t = { s with
      status := statusDone, err := errNone, outv := 0x04, outlen := s.len, outp := t.outp,
      kLatch := t.kLatch, sTab := t.sTab, tTab := t.tTab, fwd := t.fwd, bwd := t.bwd, pos := t.pos } := by
  rw [← ht, h]
  rfl

/-- The string that ENC_DOUBLE leaves in OUT1 (R134). -/
theorem stringStored_encDoubleStrings_out1 {var : Variant} {k : Int} (hk : ShiftLegal k) {s : State}
    (hvalid : TextValid s) :
    StringStored s.out1 (encDoubleStrings (builtState var k s)).out1 s.len
      fun p => upperChar (fun a => a + k) (inByte s p) := by
  have hout : (encDoubleStrings (builtState var k s)).out1 =
      Memory.writeString s.out1 0 ((readMessage s).map (stage1Char (BitVec.ofInt 5 k))) := by
    simp [encDoubleStrings, encryptStage1_eq_map]
  rw [hout]
  exact stringStored_map hvalid (fun c _ => by rw [stage1Char_latched hk]) _

/-- The string that ENC_DOUBLE leaves in OUT2 (R134). -/
theorem StageTwo.stringStored_encDoubleStrings_out2 {var : Variant} {k : Int} {T : Table} {stage2 plain : Int → Int}
    (h : StageTwo var k T stage2 plain) {s : State} (hvalid : TextValid s) :
    StringStored s.out2 (encDoubleStrings (builtState var k s)).out2 s.len fun p => upperChar stage2 (inByte s p) := by
  obtain ⟨hfwd, -⟩ := h.builtState_maps s
  have hout : (encDoubleStrings (builtState var k s)).out2 = Memory.writeString s.out2 0 ((readMessage s).map
      (lookupChar (pairedMap (shiftedAlphabet (BitVec.ofInt 5 k)) T) ∘ stage1Char (BitVec.ofInt 5 k))) := by
    simp [encDoubleStrings, applyForward_eq_map, encryptStage1_eq_map, hfwd]
  rw [hout]
  exact stringStored_map hvalid (fun c hc => h.lookupChar_stage1Char hc) _

/-- The string that DEC_DOUBLE leaves in OUTP (R135). -/
theorem StageTwo.stringStored_decDoubleStrings {var : Variant} {k : Int} {T : Table} {stage2 plain : Int → Int}
    (h : StageTwo var k T stage2 plain) {s : State} (hvalid : TextValid s) :
    StringStored s.outp (decDoubleStrings (builtState var k s)).outp s.len fun p => lowerChar plain (inByte s p) := by
  obtain ⟨-, hbwd⟩ := h.builtState_maps s
  have hout : (decDoubleStrings (builtState var k s)).outp = Memory.writeString s.outp 0 ((readMessage s).map
      (plainChar (BitVec.ofInt 5 k) ∘ lookupChar (pairedMap T (shiftedAlphabet (BitVec.ofInt 5 k))))) := by
    simp [decDoubleStrings, applyBackward_eq_map, decryptStage1_eq_map, hbwd]
  rw [hout]
  exact stringStored_map hvalid (fun c hc => h.plainChar_lookupChar hc) _

/-! ### MAP_TABLE (R136) -/

/-- `t` differs from `s` at most in OUTV, OUTLEN, K, S and T: what MAP_TABLE has changed when it comes to its rows. -/
def MapTablesBuilt (s t : State) : Prop :=
  t = { s with outv := t.outv, outlen := t.outlen, kLatch := t.kLatch, sTab := t.sTab, tTab := t.tTab }

theorem mapTablesBuilt_buildT (var : Variant) (k : Int) (s : State) :
    MapTablesBuilt s (buildT var (buildS (latchShift k (clearOutputs s)))) := by
  cases var <;> rfl

/-- What storing the rows changes, whatever they are. -/
theorem complete_storeTbl_frame {s u t : State} {codes : List Byte} (h : MapTablesBuilt s u)
    (ht : complete outvVT 0 (storeTbl codes u) = t) :
    t = { s with
      status := statusDone, err := errNone, outv := 0x10, outlen := 0, tbl := t.tbl, kLatch := t.kLatch,
      sTab := t.sTab, tTab := t.tTab } := by
  rw [← ht, h]
  rfl

theorem mapTableBody_tbl (var : Variant) (s : State) : (mapTableBody var s).tbl =
    (storeTbl (tableCodes (shiftedAlphabet s.kLatch) (buildT var (buildS s)).tTab) s).tbl := by
  simp [mapTableBody, mapTableRows]

/-- The columns of a row are the letter, its shift and entry `r` of T. -/
theorem StageTwo.mapTableBody_row {var : Variant} {k : Int} {T : Table} {stage2 plain : Int → Int}
    (h : StageTwo var k T stage2 plain) (hk : ShiftLegal k) {s : State} (hs : s.kLatch = BitVec.ofInt 5 k) {r : Nat}
    (hr : r < 26) :
    Memory.read (mapTableBody var s).tbl (tblIndex r 0) = some (lower (BitVec.ofNat 5 r)) ∧
    Memory.read (mapTableBody var s).tbl (tblIndex r 1) = some (upper (BitVec.ofInt 5 ((r + k) % 26))) ∧
    Memory.read (mapTableBody var s).tbl (tblIndex r 2) = some (upper (BitVec.ofInt 5 (stage2 r % 26))) := by
  have hindex : (BitVec.ofNat 5 r).toNat = r := by rw [BitVec.toNat_ofNat]; omega
  have hshifted : tableGet (shiftedAlphabet (BitVec.ofInt 5 k)) (BitVec.ofNat 5 r) = BitVec.ofInt 5 ((r + k) % 26) := by
    rw [tableGet_shiftedAlphabet _ (by omega), shiftForward_latched _ k hk, hindex]
  have htarget : tableGet T (BitVec.ofNat 5 r) = BitVec.ofInt 5 (stage2 r % 26) := by
    rw [h.entry (by omega), hindex]
  rw [mapTableBody_tbl, hs, h.built hs, ← hshifted, ← htarget]
  exact tbl_row_storeTbl _ T s hr

/-- TBL has 78 elements, and MAP_TABLE writes no other. -/
theorem mapTableBody_read_of_le (var : Variant) (s : State) {a : Nat} (ha : 78 ≤ a) :
    Memory.read (mapTableBody var s).tbl a = Memory.read s.tbl a := by
  rw [mapTableBody_tbl, storeTbl_tbl, read_writeString, dif_neg (by rw [tableCodes_length]; omega)]

/-- The two ways MAP_TABLE ends, for either variant: the shift check is its only one (R130). -/
theorem StageTwo.mapTable_ends {i : Instr} {var : Variant} {k : Int} {T : Table} {stage2 plain : Int → Int} {s : State}
    (hexec : exec i s = .next (mapTableCommand k var s)) (h : ShiftLegal k → StageTwo var k T stage2 plain) :
    (¬ ShiftLegal k → ∃ t, exec i s = .next t ∧ ErrorEntry .shiftOutOfRange s t) ∧
    (ShiftLegal k → ∃ t, exec i s = .next t ∧
      t = { s with
            status := statusDone, err := errNone, outv := 0x10, outlen := 0, tbl := t.tbl,
            kLatch := t.kLatch, sTab := t.sTab, tTab := t.tTab } ∧
      (∀ r : Nat, r < 26 →
        Memory.read t.tbl (tblIndex r 0) = some (lower (BitVec.ofNat 5 r)) ∧
        Memory.read t.tbl (tblIndex r 1) = some (upper (BitVec.ofInt 5 ((r + k) % 26))) ∧
        Memory.read t.tbl (tblIndex r 2) = some (upper (BitVec.ofInt 5 (stage2 r % 26)))) ∧
      ∀ a, 78 ≤ a → Memory.read t.tbl a = Memory.read s.tbl a) := by
  rw [hexec]
  rcases mapTableCommand_cases k var s with ⟨hnot, e⟩ | ⟨hlegal, e⟩ <;> rw [e]
  · exact ⟨fun _ => ⟨_, rfl, errorEntry_raise _ s⟩, fun hlegal => absurd hlegal hnot⟩
  · exact ⟨fun hnot => absurd hlegal hnot, fun _ => ⟨_, rfl,
      complete_storeTbl_frame (mapTablesBuilt_buildT var k s) rfl,
      fun _ => (h hlegal).mapTableBody_row hlegal rfl, fun _ => mapTableBody_read_of_le var _⟩⟩

/-! ### The two ways a command ends (R130, R159) -/

/-- The command completed, or made the error entry of one of the errors that the engine reports. -/
def CompletesOrFails (s t : State) : Prop :=
  (t.status = statusDone ∧ t.err = errNone) ∨
    ∃ e ∈ [ErrorName.illegalCommand, .shiftOutOfRange, .invalidCharacter], ErrorEntry e s t

theorem CompletesOrFails.status_err {s t : State} (h : CompletesOrFails s t) :
    (t.status = statusDone ∧ t.err = errNone) ∨ (t.status = statusError ∧ t.err ≠ errNone) := by
  refine h.imp_right ?_
  rintro ⟨e, -, ht⟩
  have hcode : e.code ≠ errNone := by cases e <;> decide
  rw [ht]
  exact ⟨rfl, hcode⟩

theorem cipherCommand_completesOrFails {k : Int} {body : State → State} {s : State}
    (hbody : (body (bodyState k s)).status = statusDone ∧ (body (bodyState k s)).err = errNone) :
    CompletesOrFails s (cipherCommand k body s) := by
  rcases cipherCommand_cases k body s with ⟨-, e⟩ | ⟨-, -, e⟩ | ⟨-, -, -, e⟩ | ⟨-, -, -, e⟩ <;> rw [e]
  · exact .inr ⟨_, by simp, errorEntry_raise _ s⟩
  · exact .inr ⟨_, by simp, errorEntry_raise _ s⟩
  · exact .inr ⟨_, by simp, errorEntry_raise_pos _ s s.len⟩
  · exact .inl hbody

theorem doubleCipher_completesOrFails {k : Int} {var : Variant} (hvar : var ≠ .none) {strings : State → State}
    (hstrings : ∀ u, (strings u).status = statusDone ∧ (strings u).err = errNone) (s : State) :
    CompletesOrFails s (cipherCommand k (fun u => buildMaps strings (buildT var (buildS u))) s) := by
  refine cipherCommand_completesOrFails ?_
  rw [buildMaps_builtTables hvar]
  exact hstrings _

theorem mapTableCommand_completesOrFails (k : Int) (var : Variant) (s : State) :
    CompletesOrFails s (mapTableCommand k var s) := by
  rcases mapTableCommand_cases k var s with ⟨-, e⟩ | ⟨-, e⟩ <;> rw [e]
  · exact .inr ⟨_, by simp, errorEntry_raise _ s⟩
  · exact .inl ⟨rfl, rfl⟩

theorem isValidCommand_completesOrFails (s : State) : CompletesOrFails s (messageCommand isValidBody s) := by
  rcases messageCommand_cases isValidBody s with ⟨-, e⟩ | ⟨-, e⟩ <;> rw [e]
  · exact .inr ⟨_, by simp, errorEntry_raise _ s⟩
  · exact .inl ⟨rfl, rfl⟩

theorem exec_completesOrFails (i : Instr) (s : State) : ∃ t, exec i s = .next t ∧ CompletesOrFails s t := by
  have henc (u : State) : (encDoubleStrings u).status = statusDone ∧ (encDoubleStrings u).err = errNone := ⟨rfl, rfl⟩
  have hdec (u : State) : (decDoubleStrings u).status = statusDone ∧ (decDoubleStrings u).err = errNone := ⟨rfl, rfl⟩
  cases i with
  | isValid => exact ⟨_, rfl, isValidCommand_completesOrFails s⟩
  | encCaesar k => exact ⟨_, rfl, cipherCommand_completesOrFails ⟨rfl, rfl⟩⟩
  | decCaesar k => exact ⟨_, rfl, cipherCommand_completesOrFails ⟨rfl, rfl⟩⟩
  | encDoubleRev k => exact ⟨_, rfl, doubleCipher_completesOrFails (var := .reversed) nofun henc s⟩
  | encDoubleVf k => exact ⟨_, rfl, doubleCipher_completesOrFails (var := .vowelFirst) nofun henc s⟩
  | decDoubleRev k => exact ⟨_, rfl, doubleCipher_completesOrFails (var := .reversed) nofun hdec s⟩
  | decDoubleVf k => exact ⟨_, rfl, doubleCipher_completesOrFails (var := .vowelFirst) nofun hdec s⟩
  | mapTableRev k => exact ⟨_, rfl, mapTableCommand_completesOrFails k .reversed s⟩
  | mapTableVf k => exact ⟨_, rfl, mapTableCommand_completesOrFails k .vowelFirst s⟩

theorem issue_done_or_error (w : Word) (s : State) : ∃ t, issue w s = .next t ∧
    ((t.status = statusDone ∧ t.err = errNone) ∨ (t.status = statusError ∧ t.err ≠ errNone)) := by
  rcases issue_cases w s with ⟨i, -, e⟩ | ⟨-, -, e⟩
  · obtain ⟨t, ht, hends⟩ := exec_completesOrFails i { s with cmd := w, reply := .done }
    exact ⟨t, e.trans ht, hends.status_err⟩
  · exact ⟨_, e, .inr ⟨rfl, show ErrorName.illegalCommand.code ≠ errNone by decide⟩⟩

/-! ### The same word on the same message (R138) -/

/-- A command that reads the message ends at the length check where LEN exceeds MAXLEN. -/
theorem exec_of_not_fits {i : Instr} (hi : readsMessage i = true) {s : State} (hs : ¬ MessageFits s) :
    exec i s = .next (raise .illegalCommand (clearOutputs s)) := by
  have hcheck (rest : State → State) : messageCommand rest s = raise .illegalCommand (clearOutputs s) := by
    rcases messageCommand_cases rest s with ⟨-, e⟩ | ⟨hfits, -⟩
    · exact e
    · exact absurd hfits hs
  cases i with
  | mapTableRev k => cases hi
  | mapTableVf k => cases hi
  | _ => exact congrArg Host.Outcome.next (hcheck _)

/-- Equal bytes at the elements of IN that exist are enough: where LEN names others no command reads the message. -/
theorem exec_sameResults_of_present (i : Instr) {s t : State} (hmax : s.maxLen = t.maxLen) (hlen : s.len = t.len)
    (hbytes : ∀ p, p < s.len → p < s.maxLen → inByte s p = inByte t p) :
    ∃ s' t', exec i s = .next s' ∧ exec i t = .next t' ∧ SameResults s' t' := by
  by_cases hs : MessageFits s
  · have hsame : SameInputs s t := ⟨hmax, hlen, fun p hp => hbytes p hp (hp.trans_le hs)⟩
    exact exec_sameResults i hsame.sameGlyphs
  · have ht : ¬ MessageFits t := by rwa [MessageFits, ← hmax, ← hlen]
    cases hi : readsMessage i with
    | true =>
      exact ⟨_, _, exec_of_not_fits hi hs, exec_of_not_fits hi ht,
        sameResults_raise _ (outputsCleared_clearOutputs s) (outputsCleared_clearOutputs t)⟩
    | false =>
      cases i with
      | mapTableRev k => exact ⟨_, _, rfl, rfl, mapTableCommand_sameResults (var := .reversed) k nofun s t⟩
      | mapTableVf k => exact ⟨_, _, rfl, rfl, mapTableCommand_sameResults (var := .vowelFirst) k nofun s t⟩
      | _ => cases hi

theorem issue_of_decode_ok {w : Word} {i : Instr} (h : decode w = .ok i) (s : State) :
    issue w s = exec i { s with cmd := w, reply := .done } := by
  rcases issue_cases w s with ⟨j, hj, e⟩ | ⟨x, hx, -⟩
  · obtain rfl : j = i := by simpa [hj] using h
    exact e
  · rw [h] at hx
    cases hx

theorem issue_sameResults_of_present (w : Word) {s t : State} (hmax : s.maxLen = t.maxLen) (hlen : s.len = t.len)
    (hbytes : ∀ p, p < s.len → p < s.maxLen → inByte s p = inByte t p) :
    ∃ s' t', issue w s = .next s' ∧ issue w t = .next t' ∧ SameResults s' t' := by
  cases hw : decode w with
  | ok i =>
    rw [issue_of_decode_ok hw, issue_of_decode_ok hw]
    exact exec_sameResults_of_present i hmax hlen hbytes
  | error x =>
    exact ⟨_, _, issue_of_decode_error ⟨x, hw⟩, issue_of_decode_error ⟨x, hw⟩,
      sameResults_raise _ (outputsCleared_clearOutputs _) (outputsCleared_clearOutputs _)⟩

/-! ### The statements on the single commands -/

/-- Settles O17: the length check is its one error, and RESULT is the predicate of R81. -/
theorem isValidAnswersForTheText : Obligations.IsValidAnswersForTheText := by
  refine ⟨decode_of_spells (spells_iff_encode.2 ⟨rfl, rfl⟩), fun w => decode_error_of_op_one, fun s => ⟨fun hs => ?_,
    fun hs => ?_⟩⟩
  · exact ⟨_, exec_of_not_fits rfl hs, errorEntry_raise _ s⟩
  · rcases messageCommand_cases isValidBody s with ⟨hnot, -⟩ | ⟨-, e⟩
    · exact absurd hs hnot
    · have hresult : (isValidBody (clearOutputs s)).result = if isValidText (readMessage s) then 1 else 0 := rfl
      refine ⟨_, congrArg Host.Outcome.next e, rfl, fun hvalid => ?_, fun hinvalid => ?_⟩
      · rw [hresult, if_pos ((isValidText_readMessage s).2 hvalid)]
      · rw [hresult, if_neg fun h => hinvalid ((isValidText_readMessage s).1 h)]

/-- Settles O18: the message mapped by stage-1 encryption, on integers. -/
theorem encCaesarWritesStageOne : Obligations.EncCaesarWritesStageOne := by
  refine ⟨fun b => decode_append_lowByte b (i := .encCaesar b.toInt) rfl, fun k s => ?_⟩
  refine CipherEnds.of_body (body := encCaesarBody) rfl fun hlegal hvalid => ⟨rfl, ?_⟩
  exact stringStored_map hvalid (fun c _ => congrFun (stage1Char_latched hlegal) c) _

/-- Settles O19: the message mapped by stage-1 decryption, on integers. -/
theorem decCaesarWritesPlaintext : Obligations.DecCaesarWritesPlaintext := by
  refine ⟨fun b => decode_append_lowByte b (i := .decCaesar b.toInt) rfl, fun k s => ?_⟩
  refine CipherEnds.of_body (body := decCaesarBody) rfl fun hlegal hvalid => ⟨rfl, ?_⟩
  exact stringStored_map hvalid (fun c _ => congrFun (plainChar_latched hlegal) c) _

/-- Settles O20: the two strings made in the built state, of which only scratch differs from the state of the issue. -/
theorem encDoubleWritesBothStages : Obligations.EncDoubleWritesBothStages := by
  refine ⟨fun b => ⟨decode_append_lowByte b (i := .encDoubleRev b.toInt) rfl,
    decode_append_lowByte b (i := .encDoubleVf b.toInt) rfl⟩, fun w hop => decode_error_of_variant (.inl hop), ?_⟩
  intro k s i stage2 hi
  have hframe (var : Variant) := encDoubleStrings_frame (outputsKept_builtState var k s) rfl
  rcases hi with ⟨rfl, rfl⟩ | ⟨rfl, rfl⟩
  · exact CipherEnds.of_strings (var := .reversed) (strings := encDoubleStrings) nofun rfl fun hlegal hvalid =>
      ⟨hframe _, stringStored_encDoubleStrings_out1 hlegal hvalid,
        (stageTwo_reversed hlegal).stringStored_encDoubleStrings_out2 hvalid⟩
  · exact CipherEnds.of_strings (var := .vowelFirst) (strings := encDoubleStrings) nofun rfl fun hlegal hvalid =>
      ⟨hframe _, stringStored_encDoubleStrings_out1 hlegal hvalid,
        (stageTwo_vowelFirst k).stringStored_encDoubleStrings_out2 hvalid⟩

/-- Settles O21: the one string made in the built state, of which only scratch differs from the state of the issue. -/
theorem decDoubleWritesPlaintext : Obligations.DecDoubleWritesPlaintext := by
  refine ⟨fun b => ⟨decode_append_lowByte b (i := .decDoubleRev b.toInt) rfl,
    decode_append_lowByte b (i := .decDoubleVf b.toInt) rfl⟩, fun w hop => decode_error_of_variant (.inr (.inl hop)), ?_⟩
  intro k s i plain hi
  have hframe (var : Variant) := decDoubleStrings_frame (outputsKept_builtState var k s) rfl
  rcases hi with ⟨rfl, rfl⟩ | ⟨rfl, rfl⟩
  · exact CipherEnds.of_strings (var := .reversed) (strings := decDoubleStrings) nofun rfl fun hlegal hvalid =>
      ⟨hframe _, (stageTwo_reversed hlegal).stringStored_decDoubleStrings hvalid⟩
  · exact CipherEnds.of_strings (var := .vowelFirst) (strings := decDoubleStrings) nofun rfl fun _ hvalid =>
      ⟨hframe _, (stageTwo_vowelFirst k).stringStored_decDoubleStrings hvalid⟩

/-- Settles O22: the rows are `StageTwo.mapTableBody_row`, for either variant. -/
theorem mapTableWritesTheTriples : Obligations.MapTableWritesTheTriples := by
  refine ⟨fun b => ⟨decode_append_lowByte b (i := .mapTableRev b.toInt) rfl,
    decode_append_lowByte b (i := .mapTableVf b.toInt) rfl⟩, fun w hop => decode_error_of_variant (.inr (.inr hop)), ?_⟩
  intro k s i stage2 hi
  rcases hi with ⟨rfl, rfl⟩ | ⟨rfl, rfl⟩
  · exact StageTwo.mapTable_ends (var := .reversed) rfl stageTwo_reversed
  · exact StageTwo.mapTable_ends (var := .vowelFirst) rfl fun _ => stageTwo_vowelFirst k

/-! ### Two commands, one after the other (R137, R139) -/

/-- `t` is a completed command's state whose output `out`, valid by the OUTV bit `bit`, holds the message of `s` mapped by
`g`. -/
structure Delivers (bit : BitVec 5) (out : State → Memory) (g : Byte → Byte) (s t : State) : Prop where
  status : t.status = statusDone
  err : t.err = errNone
  valid : t.outputValid bit = true
  outlen : t.outlen = s.len
  read : ∀ p, p < s.len → Memory.read (out t) p = some (g (inByte s p))

/-- From every state in which its checks pass, the command delivers the message mapped by `g`. -/
def CipherDelivers (i : Instr) (k : Int) (bit : BitVec 5) (out : State → Memory) (g : Byte → Byte) : Prop :=
  ∀ s, CipherAccepts k s → ∃ t, exec i s = .next t ∧ Delivers bit out g s t

theorem outputValid_of_outv {t : State} {v bit : BitVec 5} (h : t.outv = v) (hbit : (v &&& bit == bit) = true) :
    t.outputValid bit = true := by
  rw [State.outputValid, h, hbit]

theorem encCaesar_delivers (k : Int) :
    CipherDelivers (.encCaesar k) k outvV1 State.out1 (upperChar fun a => a + k) := by
  intro s hs
  obtain ⟨-, hall⟩ := encCaesarWritesStageOne
  obtain ⟨-, -, -, hdone⟩ := hall k s
  obtain ⟨t, e, ht, hread, -⟩ := hdone hs.fits hs.legal hs.valid
  exact ⟨t, e, congrArg State.status ht, congrArg State.err ht,
    outputValid_of_outv (v := 0x01) (congrArg State.outv ht) (by decide), congrArg State.outlen ht, hread⟩

theorem decCaesar_delivers (k : Int) :
    CipherDelivers (.decCaesar k) k outvVP State.outp (lowerChar fun a => a - k) := by
  intro s hs
  obtain ⟨-, hall⟩ := decCaesarWritesPlaintext
  obtain ⟨-, -, -, hdone⟩ := hall k s
  obtain ⟨t, e, ht, hread, -⟩ := hdone hs.fits hs.legal hs.valid
  exact ⟨t, e, congrArg State.status ht, congrArg State.err ht,
    outputValid_of_outv (v := 0x04) (congrArg State.outv ht) (by decide), congrArg State.outlen ht, hread⟩

theorem encDouble_delivers {i : Instr} {k : Int} {stage2 : Int → Int}
    (hi : (i = .encDoubleRev k ∧ stage2 = fun a => 25 + k - a) ∨ (i = .encDoubleVf k ∧ stage2 = vowelFirst)) :
    CipherDelivers i k outvV2 State.out2 (upperChar stage2) := by
  intro s hs
  obtain ⟨-, -, hall⟩ := encDoubleWritesBothStages
  obtain ⟨-, -, -, hdone⟩ := hall k s i stage2 hi
  obtain ⟨t, e, ht, -, hread, -⟩ := hdone hs.fits hs.legal hs.valid
  exact ⟨t, e, congrArg State.status ht, congrArg State.err ht,
    outputValid_of_outv (v := 0x03) (congrArg State.outv ht) (by decide), congrArg State.outlen ht, hread⟩

theorem decDouble_delivers {i : Instr} {k : Int} {plain : Int → Int}
    (hi : (i = .decDoubleRev k ∧ plain = fun a => 25 + k - a) ∨ (i = .decDoubleVf k ∧ plain = vowelFirstInverse)) :
    CipherDelivers i k outvVP State.outp (lowerChar plain) := by
  intro s hs
  obtain ⟨-, -, hall⟩ := decDoubleWritesPlaintext
  obtain ⟨-, -, -, hdone⟩ := hall k s i plain hi
  obtain ⟨t, e, ht, hread, -⟩ := hdone hs.fits hs.legal hs.valid
  exact ⟨t, e, congrArg State.status ht, congrArg State.err ht,
    outputValid_of_outv (v := 0x04) (congrArg State.outv ht) (by decide), congrArg State.outlen ht, hread⟩

/-- Ciphertext is valid text. -/
theorem accepted_upperChar (f : Int → Int) (c : Byte) : accepted (upperChar f c) = true := by
  have hindex : ((BitVec.ofInt 5 (f (idx c).toNat % 26)).toNat : Int) = f (idx c).toNat % 26 := toNat_ofInt_emod26 _
  rw [upperChar]
  split
  · decide
  · exact (accepted_iff _).2 (.inr ((isLetter_iff _).2 (.inl (isUpper_upper _ (by omega)))))

/-- Where `g` undoes `f`, a map by `g` on the ciphertext of `f` finds the letter at the start again, and renders it. -/
theorem letterwise_upperChar_of_undone {f g : Int → Int} (h : UndoneBy f g) (render : Index → Byte) {c : Byte}
    (hc : accepted c = true) :
    letterwise (fun a => render (BitVec.ofInt 5 (g a.toNat % 26))) (upperChar f c) =
      letterwise (fun a => render (BitVec.ofInt 5 (a.toNat % 26))) c := by
  rw [upperChar_eq_letterwise, letterwise_letterwise_upper]
  refine letterwise_congr (fun a ha => ?_) hc
  have hindex : ((BitVec.ofInt 5 (f a.toNat % 26)).toNat : Int) = f a.toNat % 26 := toNat_ofInt_emod26 _
  rw [hindex, h a.toNat (by omega) (by omega), Int.emod_eq_of_lt (by omega) (by omega)]

/-- A first command's ciphertext as the message of a second one, which undoes the first: the second delivers the message
of the first, in the case of its own output. -/
theorem CipherDelivers.undone {i j : Instr} {k l : Int} {bit bit' : BitVec 5} {out out' : State → Memory}
    {f : Int → Int} {g h : Byte → Byte} (hfirst : CipherDelivers i k bit out (upperChar f))
    (hsecond : CipherDelivers j l bit' out' g) (hl : ShiftLegal l)
    (hundone : ∀ c, accepted c = true → g (upperChar f c) = h c) {s : State} (hs : CipherAccepts k s) :
    ∃ s', exec i s = .next s' ∧ Delivers bit out (upperChar f) s s' ∧
      ∀ t : State, MessageFits t → t.len = s'.outlen →
        (∀ p, p < t.len → Memory.read (out s') p = some (inByte t p)) →
        ∃ t', exec j t = .next t' ∧ Delivers bit' out' h s t' := by
  obtain ⟨s', e, hs'⟩ := hfirst s hs
  refine ⟨s', e, hs', fun t hfits hlen hmsg => ?_⟩
  have hlen' : t.len = s.len := hlen.trans hs'.outlen
  have hbyte (p : Nat) (hp : p < s.len) : inByte t p = upperChar f (inByte s p) := by
    have hread := hs'.read p hp
    rw [hmsg p (hlen' ▸ hp)] at hread
    exact Option.some.inj hread
  have hvalid : TextValid t := fun p hp => by
    rw [hbyte p (hlen' ▸ hp)]
    exact accepted_upperChar f _
  obtain ⟨t', e', ht'⟩ := hsecond t ⟨hfits, hl, hvalid⟩
  refine ⟨t', e', ht'.status, ht'.err, ht'.valid, ht'.outlen.trans hlen', fun p hp => ?_⟩
  rw [ht'.read p (hlen'.symm ▸ hp), hbyte p hp, hundone _ (hs.valid p hp)]

theorem lowerChar_upperChar_of_undone {f g : Int → Int} (h : UndoneBy f g) (c : Byte) (hc : accepted c = true) :
    lowerChar g (upperChar f c) = lowerChar (fun a => a) c := by
  rw [lowerChar_eq_letterwise, lowerChar_eq_letterwise]
  exact letterwise_upperChar_of_undone h lower hc

theorem upperChar_upperChar_of_undone {f g : Int → Int} (h : UndoneBy f g) (c : Byte) (hc : accepted c = true) :
    upperChar g (upperChar f c) = upperChar (fun a => a) c := by
  rw [upperChar_eq_letterwise g, upperChar_eq_letterwise fun a => a]
  exact letterwise_upperChar_of_undone h upper hc

/-- The two commands of each cipher, as maps of characters that undo each other. -/
theorem exists_delivers_and_undone (v : Variant) (k : Int) : ∃ bit f g,
    CipherDelivers (encryptWith v k) k bit (cipherText v) (upperChar f) ∧
    CipherDelivers (decryptWith v k) k outvVP State.outp (lowerChar g) ∧ UndoneBy f g := by
  cases v with
  | none => exact ⟨_, _, _, encCaesar_delivers k, decCaesar_delivers k, undoneBy_shift k⟩
  | reversed =>
    exact ⟨_, _, _, encDouble_delivers (.inl ⟨rfl, rfl⟩), decDouble_delivers (.inl ⟨rfl, rfl⟩), undoneBy_reversed k⟩
  | vowelFirst =>
    exact ⟨_, _, _, encDouble_delivers (.inr ⟨rfl, rfl⟩), decDouble_delivers (.inr ⟨rfl, rfl⟩), undoneBy_vowelFirst⟩

/-! ### The statements over all commands, and the round trips -/

/-- Settles O35: decrypting maps each character back, whatever the variant. -/
theorem decryptionInvertsEncryption : Obligations.DecryptionInvertsEncryption := by
  intro v k s hfits hlegal hvalid
  obtain ⟨bit, f, g, henc, hdec, hundone⟩ := exists_delivers_and_undone v k
  obtain ⟨s', e, hs', hback⟩ := henc.undone hdec hlegal (lowerChar_upperChar_of_undone hundone) ⟨hfits, hlegal, hvalid⟩
  refine ⟨s', e, hs'.status, hs'.outlen, fun t htfits hlen hmsg => ?_⟩
  obtain ⟨t', e', ht'⟩ := hback t htfits hlen hmsg
  exact ⟨t', e', ht'.status, ht'.err, ht'.valid, ht'.outlen, ht'.read⟩

/-- Settles O36: neither map of the vowel-first cipher depends on the shift. -/
theorem vowelFirstDecryptsUnderAnyShift : Obligations.VowelFirstDecryptsUnderAnyShift := by
  intro k l s hfits hk hl hvalid
  have henc : CipherDelivers (.encDoubleVf k) k outvV2 State.out2 (upperChar vowelFirst) :=
    encDouble_delivers (.inr ⟨rfl, rfl⟩)
  have hdec : CipherDelivers (.decDoubleVf l) l outvVP State.outp (lowerChar vowelFirstInverse) :=
    decDouble_delivers (.inr ⟨rfl, rfl⟩)
  obtain ⟨s', e, hs', hback⟩ :=
    henc.undone hdec hl (lowerChar_upperChar_of_undone undoneBy_vowelFirst) ⟨hfits, hk, hvalid⟩
  refine ⟨s', e, hs'.outlen, fun t htfits hlen hmsg => ?_⟩
  obtain ⟨t', e', ht'⟩ := hback t htfits hlen hmsg
  exact ⟨t', e', ht'.valid, ht'.read⟩

/-- Settles O37: the map of the reversed cipher undoes itself. -/
theorem reversedCipherIsAnInvolution : Obligations.ReversedCipherIsAnInvolution := by
  intro k s hfits hlegal hvalid
  have henc : CipherDelivers (.encDoubleRev k) k outvV2 State.out2 (upperChar fun a => 25 + k - a) :=
    encDouble_delivers (.inl ⟨rfl, rfl⟩)
  obtain ⟨s', e, hs', hback⟩ :=
    henc.undone henc hlegal (upperChar_upperChar_of_undone (undoneBy_reversed k)) ⟨hfits, hlegal, hvalid⟩
  refine ⟨s', e, hs'.outlen, fun t htfits hlen hmsg => ?_⟩
  obtain ⟨t', e', ht'⟩ := hback t htfits hlen hmsg
  exact ⟨t', e', ht'.valid, ht'.read⟩

/-- Settles O26: every issue completes or fails, and two issues of one word see the same bytes where they see any. -/
theorem commandsAreTotalAndMemoryless : Obligations.CommandsAreTotalAndMemoryless := by
  refine ⟨fun s w rest hpending => ?_, fun s t w rest rest' hs ht hmax hlen hbytes => ?_⟩
  · rw [step_of_pending hpending]
    exact issue_done_or_error w _
  · rw [step_of_pending hs, step_of_pending ht]
    refine issue_sameResults_of_present w (s := takeAction rest s) (t := takeAction rest' t) hmax hlen fun p hp hin => ?_
    obtain ⟨c, hc, hc'⟩ := hbytes p hp hin
    rw [inByte_of_read (s := takeAction rest s) hc, inByte_of_read (s := takeAction rest' t) hc']

/-- Settles O23: the issue runs what its word decodes to, and the step without an action is idle. -/
theorem stepRunsTheDecodedCommand : Obligations.StepRunsTheDecodedCommand := by
  refine ⟨fun s w rest i hpending hi => ?_, fun s hpending => ?_⟩
  · rw [step_of_pending hpending, hostAction, issue_of_decode_ok hi]
    rfl
  · rcases step_cases s with ⟨-, e⟩ | ⟨a, rest, hsome, -⟩
    · exact e
    · rw [hpending] at hsome
      cases hsome

/-- Settles O27: each of the host's actions answers a next state, and so does a step without one. -/
theorem everyStepAnswersNext : Obligations.EveryStepAnswersNext := exists_step_eq_next

end Sys2Proof.Machine
end

section
/-! PROOFS. Family 60_exceptions.md: the checks of a command in their order and the one error of the first that fails
(R158), the error entry as all that a failed command changes (R159), and that no command depends on how the one before
it ended (R160).

R158 is proved for the three kinds of command that there are: the ciphers, whose four ends `CipherEnds` already states,
MAP_TABLE, which has the shift check only, and IS_VALID, which has the length check only. R160 rests on two facts: every
issue clears OUTV and OUTLEN before anything reads them, and every way a command ends writes STATUS and ERR, which
nothing before the end reads (`OverwritesStatus`), so that the whole command forgets all four (`ForgetsResults`). -/

namespace Sys2Proof.Machine

/-! ### The first failing check (R158) -/

/-- The command completed, and CMD holds what it held. -/
def Completed (s t : State) : Prop := t.status = statusDone ∧ t.err = errNone ∧ t.cmd = s.cmd

/-- The checks after `Decode`, in the order of R158: the first that fails names the error, and where none fails the
command completes. -/
structure ChecksInOrder (i : Instr) (s : State) : Prop where
  length : readsMessage i = true → ¬ MessageFits s → ∃ t, exec i s = .next t ∧ ErrorEntry .illegalCommand s t
  shift : ∀ k, (readsMessage i = true → MessageFits s) → shiftOf i = some k → ¬ ShiftLegal k →
    ∃ t, exec i s = .next t ∧ ErrorEntry .shiftOutOfRange s t
  text : ∀ k, (readsMessage i = true → MessageFits s) → shiftOf i = some k → ShiftLegal k →
    isCipher i = true → ¬ TextValid s → ∃ t, exec i s = .next t ∧ ErrorEntry .invalidCharacter s t
  pass : (readsMessage i = true → MessageFits s) → (∀ k, shiftOf i = some k → ShiftLegal k) →
    (isCipher i = true → TextValid s) → ∃ t, exec i s = .next t ∧ Completed s t

theorem readsMessage_of_isCipher {i : Instr} (h : isCipher i = true) : readsMessage i = true := by
  cases i with
  | isValid | mapTableRev _ | mapTableVf _ => cases h
  | _ => rfl

/-- A cipher command makes all three checks. -/
theorem ChecksInOrder.of_cipherEnds {i : Instr} {k : Int} {s : State} (hcipher : isCipher i = true)
    (hshift : shiftOf i = some k) (h : CipherEnds i k s (Completed s)) : ChecksInOrder i s := by
  have hreads := readsMessage_of_isCipher hcipher
  have shift_eq {l : Int} (hl : shiftOf i = some l) : k = l := Option.some.inj (hshift.symm.trans hl)
  obtain ⟨hlength, hrange, htext, hpass⟩ := h
  constructor
  case length => exact fun _ hs => hlength hs
  case shift =>
    intro l hfits hl hnot
    obtain rfl := shift_eq hl
    exact hrange (hfits hreads) hnot
  case text =>
    intro l hfits hl hlegal _ hinvalid
    obtain rfl := shift_eq hl
    exact htext (hfits hreads) hlegal hinvalid
  case pass => exact fun hfits hlegal hvalid => hpass (hfits hreads) (hlegal k hshift) (hvalid hcipher)

/-- MAP_TABLE makes the shift check only. -/
theorem ChecksInOrder.of_mapTable {i : Instr} {k : Int} {var : Variant} {s : State} (hreads : readsMessage i = false)
    (hshift : shiftOf i = some k) (hexec : exec i s = .next (mapTableCommand k var s)) : ChecksInOrder i s := by
  have hcipher : isCipher i ≠ true := fun h => by simp [readsMessage_of_isCipher h] at hreads
  have hends := mapTableCommand_cases k var s
  constructor
  case length => exact fun h => absurd h (by simp [hreads])
  case shift =>
    intro l _ hl hnot
    obtain rfl : k = l := Option.some.inj (hshift.symm.trans hl)
    rcases hends with ⟨-, e⟩ | ⟨hlegal, -⟩
    · exact ⟨_, hexec.trans (congrArg _ e), errorEntry_raise _ s⟩
    · exact absurd hlegal hnot
  case text => exact fun _ _ _ _ h => absurd h hcipher
  case pass =>
    intro _ hlegal _
    rcases hends with ⟨hnot, -⟩ | ⟨-, e⟩
    · exact absurd (hlegal k hshift) hnot
    · exact ⟨_, hexec.trans (congrArg _ e), rfl, rfl, by simp [mapTableBody, mapTableRows, latchShift]⟩

/-- IS_VALID makes the length check only. -/
theorem isValid_checksInOrder (s : State) : ChecksInOrder .isValid s where
  length hreads hs := ⟨_, exec_of_not_fits hreads hs, errorEntry_raise _ s⟩
  shift _ _ h := by cases h
  text _ _ h := by cases h
  pass hfits _ _ := by
    rcases messageCommand_cases isValidBody s with ⟨hs, -⟩ | ⟨-, e⟩
    · exact absurd (hfits rfl) hs
    · exact ⟨_, congrArg Host.Outcome.next e, rfl, rfl, rfl⟩

/-- The strings of a double cipher are made in a state that keeps CMD, and they end in `complete`. -/
theorem completed_encDoubleStrings (var : Variant) (k : Int) (s : State) :
    Completed s (encDoubleStrings (builtState var k s)) := by
  rw [outputsKept_builtState var k s]
  exact ⟨rfl, rfl, rfl⟩

theorem completed_decDoubleStrings (var : Variant) (k : Int) (s : State) :
    Completed s (decDoubleStrings (builtState var k s)) := by
  rw [outputsKept_builtState var k s]
  exact ⟨rfl, rfl, rfl⟩

theorem exec_checksInOrder (i : Instr) (s : State) : ChecksInOrder i s := by
  have henc (var : Variant) (k : Int) := completed_encDoubleStrings var k s
  have hdec (var : Variant) (k : Int) := completed_decDoubleStrings var k s
  cases i with
  | isValid => exact isValid_checksInOrder s
  | encCaesar k => exact .of_cipherEnds rfl rfl (.of_body rfl fun _ _ => ⟨rfl, rfl, rfl⟩)
  | decCaesar k => exact .of_cipherEnds rfl rfl (.of_body rfl fun _ _ => ⟨rfl, rfl, rfl⟩)
  | encDoubleRev k => exact .of_cipherEnds rfl rfl (.of_strings (var := .reversed) nofun rfl fun _ _ => henc _ k)
  | encDoubleVf k => exact .of_cipherEnds rfl rfl (.of_strings (var := .vowelFirst) nofun rfl fun _ _ => henc _ k)
  | decDoubleRev k => exact .of_cipherEnds rfl rfl (.of_strings (var := .reversed) nofun rfl fun _ _ => hdec _ k)
  | decDoubleVf k => exact .of_cipherEnds rfl rfl (.of_strings (var := .vowelFirst) nofun rfl fun _ _ => hdec _ k)
  | mapTableRev k => exact .of_mapTable (var := .reversed) rfl rfl rfl
  | mapTableVf k => exact .of_mapTable (var := .vowelFirst) rfl rfl rfl

/-! ### What the last command left in the result registers (R160) -/

/-- `f` does not read STATUS and ERR, and it writes both. -/
def OverwritesStatus (f : State → State) : Prop :=
  ∀ (s : State) (st : BitVec 2) (er : BitVec 3), f { s with status := st, err := er } = f s

/-- What `f` answers depends on none of STATUS, ERR, OUTV and OUTLEN. -/
def ForgetsResults {α : Type} (f : State → α) : Prop :=
  ∀ (s : State) (st : BitVec 2) (er : BitVec 3) (ov : BitVec 5) (n : Nat),
    f { s with status := st, err := er, outv := ov, outlen := n } = f s

theorem overwritesStatus_raise (e : ErrorName) : OverwritesStatus (raise e) := fun _ _ _ => rfl

theorem OverwritesStatus.checkShift {rest : State → State} (h : OverwritesStatus rest) (k : Int) :
    OverwritesStatus (checkShift k rest) :=
  fun s st er => if_congr Iff.rfl (h s st er) (overwritesStatus_raise _ s st er)

theorem OverwritesStatus.checkText {rest : State → State} (h : OverwritesStatus rest) :
    OverwritesStatus (checkText rest) :=
  fun s st er => if_congr Iff.rfl (h { s with pos := s.len } st er)
    (overwritesStatus_raise _ { s with pos := s.len } st er)

theorem OverwritesStatus.doubleBody {strings : State → State} (h : OverwritesStatus strings) (var : Variant) :
    OverwritesStatus fun s => buildMaps strings (buildT var (buildS s)) := by
  intro s st er
  have hbuilt : buildT var (buildS { s with status := st, err := er }) =
      { buildT var (buildS s) with status := st, err := er } := by cases var <;> rfl
  calc buildMaps strings (buildT var (buildS { s with status := st, err := er }))
    _ = buildMaps strings { buildT var (buildS s) with status := st, err := er } := by rw [hbuilt]
    _ = buildMaps strings (buildT var (buildS s)) :=
      if_congr Iff.rfl (h (writeMaps (buildT var (buildS s))) st er) (overwritesStatus_raise _ _ st er)

theorem overwritesStatus_mapTableBody (var : Variant) (k : Int) :
    OverwritesStatus fun s => mapTableBody var (latchShift k s) := by
  intro s st er
  cases var <;> rfl

/-- OUTV and OUTLEN are cleared before anything reads the state. -/
theorem OverwritesStatus.after_clearOutputs {f : State → State} (h : OverwritesStatus f) :
    ForgetsResults fun s => f (clearOutputs s) :=
  fun s st er _ _ => h (clearOutputs s) st er

theorem OverwritesStatus.messageCommand {rest : State → State} (h : OverwritesStatus rest) :
    ForgetsResults (messageCommand rest) :=
  fun s st er ov n => if_congr Iff.rfl ((overwritesStatus_raise _).after_clearOutputs s st er ov n)
    (h.after_clearOutputs s st er ov n)

theorem OverwritesStatus.cipherCommand {body : State → State} (h : OverwritesStatus body) (k : Int) :
    ForgetsResults (cipherCommand k body) := by
  have hlatched : OverwritesStatus fun t => body (latchShift k t) := fun t => h (latchShift k t)
  exact (hlatched.checkText.checkShift k).messageCommand

theorem mapTableCommand_forgetsResults (k : Int) (var : Variant) : ForgetsResults (mapTableCommand k var) :=
  ((overwritesStatus_mapTableBody var k).checkShift k).after_clearOutputs

theorem ForgetsResults.next {f : State → State} (h : ForgetsResults f) :
    ForgetsResults fun s => (.next (f s) : Host.Outcome State Fault Refusal) :=
  fun s st er ov n => congrArg Host.Outcome.next (h s st er ov n)

theorem exec_forgetsResults (i : Instr) : ForgetsResults (exec i) := by
  have hisValid : OverwritesStatus isValidBody := fun _ _ _ => rfl
  have hencCaesar : OverwritesStatus encCaesarBody := fun _ _ _ => rfl
  have hdecCaesar : OverwritesStatus decCaesarBody := fun _ _ _ => rfl
  have henc : OverwritesStatus encDoubleStrings := fun _ _ _ => rfl
  have hdec : OverwritesStatus decDoubleStrings := fun _ _ _ => rfl
  cases i with
  | isValid => exact hisValid.messageCommand.next
  | encCaesar k => exact (hencCaesar.cipherCommand k).next
  | decCaesar k => exact (hdecCaesar.cipherCommand k).next
  | encDoubleRev k => exact ((henc.doubleBody .reversed).cipherCommand k).next
  | encDoubleVf k => exact ((henc.doubleBody .vowelFirst).cipherCommand k).next
  | decDoubleRev k => exact ((hdec.doubleBody .reversed).cipherCommand k).next
  | decDoubleVf k => exact ((hdec.doubleBody .vowelFirst).cipherCommand k).next
  | mapTableRev k => exact (mapTableCommand_forgetsResults k .reversed).next
  | mapTableVf k => exact (mapTableCommand_forgetsResults k .vowelFirst).next

/-! ### The statements -/

/-- Settles O24: an issue whose word decodes is its command, whose checks are in order. -/
theorem firstFailingCheckIsReported : Obligations.FirstFailingCheckIsReported := by
  intro s u w rest hpending hu
  have hstep {i : Instr} (hi : decode w = .ok i) : step s = exec i u := by
    rw [hu, stepRunsTheDecodedCommand.1 s w rest i hpending hi]
  have hchecks (i : Instr) := exec_checksInOrder i u
  refine ⟨fun e he => ?illegal, fun i hi => ?length, fun i k hi => ?shift, fun i k hi => ?text, fun i hi => ?pass⟩
  case illegal =>
    rw [step_of_pending hpending, hostAction, issue_of_decode_error ⟨e, he⟩, hu]
    exact ⟨_, rfl, errorEntry_raise _ _⟩
  case length => rw [hstep hi]; exact (hchecks i).length
  case shift => rw [hstep hi]; exact (hchecks i).shift k
  case text => rw [hstep hi]; exact (hchecks i).text k
  case pass =>
    intro hfits hlegal hvalid
    obtain ⟨t, ht, hdone, herr, hcmd⟩ := (hchecks i).pass hfits hlegal hvalid
    exact ⟨t, (hstep hi).trans ht, hdone, herr, by rw [hcmd, hu]⟩

/-- Settles O25: every command completes or makes the error entry, which is a statement of the whole state. -/
theorem errorsChangeNothingElse : Obligations.ErrorsChangeNothingElse := by
  intro i s
  obtain ⟨t, ht, hends⟩ := exec_completesOrFails i s
  refine ⟨t, ht, hends.imp_right ?_⟩
  rintro ⟨e, he, hentry⟩
  exact ⟨e, by simpa using he, hentry⟩

/-- Settles O29: OUTV and OUTLEN are cleared at the issue, STATUS and ERR overwritten at every end. -/
theorem earlierErrorsAreForgotten : Obligations.EarlierErrorsAreForgotten := exec_forgetsResults

end Sys2Proof.Machine
end

section
/-! PROOFS. Family 70_reset_and_hazards.md: RESET leaves the reset state (R170, R171). -/

namespace Sys2Proof.Machine

/-- MAXLEN is all that tells the reset states of two engines apart (R31). -/
theorem resetOf_eq_reset_with_maxLen (n : Nat) : State.resetOf n = { State.reset with maxLen := n } := rfl

/-- RESET reads MAXLEN and the host's side of the state, and nothing of the engine (R171). -/
theorem hostReset_eq_reset_with (s : State) :
    hostReset s =
      { State.reset with maxLen := s.maxLen, pending := s.pending, freeCount := s.freeCount, reply := .done } := by
  rw [hostReset, resetOf_eq_reset_with_maxLen]

/-- Settles O45: RESET acts in the state that counts it, of which it keeps MAXLEN and the host's side only. -/
theorem resetActionRestoresTheResetState : Obligations.ResetActionRestoresTheResetState := by
  intro s rest hpending
  calc step s
    _ = hostAction .reset (takeAction rest s) := step_of_pending hpending
    _ = .next (hostReset (takeAction rest s)) := rfl
    _ = .next { State.reset with maxLen := s.maxLen, pending := rest, freeCount := s.freeCount + 1, reply := .done } := by
      rw [hostReset_eq_reset_with, takeAction_maxLen, takeAction_pending, takeAction_freeCount]

end Sys2Proof.Machine
end
